-- ==== Sys2Proof/Word.lean ====
section
/-! DEFINITION. The words of the machine: bytes, 16-bit words, register indices, instruction fields.
All values are unsigned (00_scope.md R7). -/

namespace Sys2Proof

/-- An 8-bit value: a V register, a timer, a byte of memory (10_state.md R21, R29, R30). -/
abbrev Byte := BitVec 8

/-- A 16-bit value: PC, I, a stack entry, an instruction word (10_state.md R23, R26, R27, 30_encoding.md R90). -/
abbrev Word := BitVec 16

/-- The 12-bit address NNN of an instruction word (00_scope.md R8). -/
abbrev Addr12 := BitVec 12

/-- The index of a general register, the field X or Y: always one of 16 (30_encoding.md R92). -/
abbrev RegIdx := Fin 16

/-- `V[15]`, written VF, is the flag register (10_state.md R22). -/
abbrev regVF : RegIdx := 15

/-- The pixel surface, a monochrome bitmap of 32 rows of 64 one-bit columns: the cell in column `x` of row `y`, whose linear
index is `x + 64*y`, is bit `x` of row `y` (10_state.md R36). -/
abbrev Surface := Vector (BitVec 64) 32

end Sys2Proof
end

