-- ==== Sys2Proof/Config.lean ====
section
/-! DEFINITION. What is fixed for the machine (00_scope.md R6), the default of its open parameter FONT
(10_state.md R31), and the free values the spec leaves open: constants without a body, so that no proof can see
what they are. -/

namespace Sys2Proof.Config

/-- MEM_SIZE: bytes of memory, addresses 0x000 to 0xFFF (00_scope.md R6). -/
def memSize : Nat := 4096

/-- PROGRAM_BASE: the reset value of PC and the first address of program code (00_scope.md R6). -/
def programBase : Nat := 0x200

/-- The default FONT, glyphs 0 to 7, five bytes each (10_state.md R31). PRESUMED, log 2. -/
def fontLow : List Byte :=
  [0xF0, 0x90, 0x90, 0x90, 0xF0] ++ [0x20, 0x60, 0x20, 0x20, 0x70] ++
  [0xF0, 0x10, 0xF0, 0x80, 0xF0] ++ [0xF0, 0x10, 0xF0, 0x10, 0xF0] ++
  [0x90, 0x90, 0xF0, 0x10, 0x10] ++ [0xF0, 0x80, 0xF0, 0x10, 0xF0] ++
  [0xF0, 0x80, 0xF0, 0x90, 0xF0] ++ [0xF0, 0x10, 0x20, 0x40, 0x40]

/-- The default FONT, glyphs 8 to F (10_state.md R31). PRESUMED, log 2. -/
def fontHigh : List Byte :=
  [0xF0, 0x90, 0xF0, 0x90, 0xF0] ++ [0xF0, 0x90, 0xF0, 0x10, 0xF0] ++
  [0xF0, 0x90, 0xF0, 0x90, 0x90] ++ [0xE0, 0x90, 0xE0, 0x90, 0xE0] ++
  [0xF0, 0x80, 0x80, 0x80, 0xF0] ++ [0xE0, 0x90, 0x90, 0x90, 0xE0] ++
  [0xF0, 0x80, 0xF0, 0x80, 0xF0] ++ [0xF0, 0x80, 0xF0, 0x80, 0x80]

/-- The default of the parameter FONT: 80 bytes, glyph `d` at `5*d` (10_state.md R31, decision D2).
PRESUMED, log 2. -/
def font : List Byte := fontLow ++ fontHigh

/-- FREE VALUE: the byte the random source returns at its call number `n` (10_state.md R35, decision D26). Log 6. -/
opaque randomByte : Nat → Byte

/-- FREE VALUE: which of several pressed keys FX0A stores at draw `n`: the position in the list of the pressed keys,
modulo its length (46_timers_and_keys.md R201, decision D15). Log 7. -/
opaque keyChoice : Nat → Nat

/-- FREE VALUE: byte `k` of what a fault in mid-instruction leaves at draw `n`, in a register or in memory
(60_exceptions.md R216). Log 8. -/
opaque freeByte : Nat → Nat → Byte

/-- FREE VALUE: the pixel cells such a fault leaves at draw `n` (60_exceptions.md R216). Log 8. -/
opaque freePixels : Nat → Surface

/-- FREE VALUE: the draw flag such a fault leaves at draw `n` (60_exceptions.md R216). Log 8. -/
opaque freeFlag : Nat → Bool

end Sys2Proof.Config
end

