-- ==== Sys2Proof/Machine/State.lean ====
section
/-! DEFINITION. The state of the machine, as plain data: every row of 10_state.md R20, and three fields of the model's
own at the end. -/

namespace Sys2Proof.Machine

/-- The three errors of the core, each with its one info value (60_exceptions.md R210, R223). -/
inductive Error where
  /-- The fetched word `op` matches no row of the opcode table (R211). -/
  | unknownOpcode (op : Word)
  /-- PC was above 0x0FFE at the start of a step (R212). -/
  | outOfBoundsFetch (addr : Word)
  /-- An effective address, a stack index or a key number that does not exist (R213). -/
  | outOfBoundsAccess (info : Nat)
  deriving DecidableEq, Repr

/-- The three results of a step (40_step_cycle.md R126). -/
inductive StepResult where
  /-- The instruction ran to its end. -/
  | ok
  /-- The instruction is FX0A and no key was pressed. -/
  | pending
  /-- The step ended in an error. -/
  | err (e : Error)
  deriving DecidableEq, Repr

/-- Why the model itself stops. The errors of the core are no `Fault`: a step that ends in one has a next state, in
which the latch `halted` holds it (60_exceptions.md R217, log 4). -/
inductive Fault where
  /-- Raised by `step` on a core whose latch `halted` holds the error `e`: "step() is not defined on a halted core"
  (10_state.md R42, 60_exceptions.md R218). Safe: nothing is claimed of such a step. -/
  | stepWhileHalted (e : Error)
  deriving DecidableEq, Repr

/-- Why the model gives an instruction no meaning. -/
inductive Refusal where
  /-- Raised by an arm of `exec` for an instruction that has no meaning yet. Safe. No arm of this model answers it. -/
  | notModelled (mnemonic : String)
  deriving DecidableEq, Repr

/-- Memory: (address, byte) pairs in one canonical form (`Memory.wf` in Machine/Memory.lean); an address that is not
listed holds its reset contents. -/
abbrev Memory := List Host.Cell

/-- The state of the machine (10_state.md R20). -/
structure State where
  /-- `V[0]` to `V[15]` (R21); `V[15]` is VF (R22). -/
  v : Vector Byte 16
  /-- The program counter (R23). -/
  pc : Word
  /-- The address register I (R26). -/
  i : Word
  /-- The 16 return addresses (R27). -/
  stack : Vector Word 16
  /-- The stack pointer, an integer 0 to 16: the number of entries in use (R28). -/
  sp : Fin 17
  /-- DT (R29). -/
  delayTimer : Byte
  /-- ST (R29). -/
  soundTimer : Byte
  /-- The 4096 bytes of memory (R30). -/
  memory : Memory
  /-- The most recently fetched word (R32). -/
  currentOpcode : Word
  /-- The pixel surface changed since last consumed (R33). -/
  drawFlag : Bool
  /-- The 16 key flags, true while the key is pressed (R34). -/
  keypad : Vector Bool 16
  /-- The 2048 pixel cells (R36). -/
  px : Surface
  /-- Nothing, or the error of the first faulting step (R42). -/
  halted : Option Error
  /-- The model's own: the result of the last step, an output of the core (R41, 40_step_cycle.md R126); none before the
  first step. No instruction reads it. DESIGN CHOICE, log 5. -/
  result : Option StepResult
  /-- The model's own: how many bytes were taken from the random source. Selects the next free value (R35). Log 6. -/
  rndCalls : Nat
  /-- The model's own: how many other free values were drawn (46_timers_and_keys.md R201, 60_exceptions.md R216).
  Logs 7 and 8. -/
  freeDraws : Nat
  deriving DecidableEq, Repr

/-- The machine after `reset()` (10_state.md R43): PC = 0x200, memory as `Memory.unlisted` says, all else zeroed. The pixel
cells, which the spec leaves unspecified, are 0: DESIGN CHOICE, log 1 (`State.resetWith` leaves them open). -/
def State.reset : State where
  v := Vector.replicate 16 0
  pc := 0x200
  i := 0
  stack := Vector.replicate 16 0
  sp := 0
  delayTimer := 0
  soundTimer := 0
  memory := []
  currentOpcode := 0
  drawFlag := false
  keypad := Vector.replicate 16 false
  px := Vector.replicate 32 0
  halted := none
  result := none
  rndCalls := 0
  freeDraws := 0

end Sys2Proof.Machine
end

