-- ==== Sys2Proof/Machine/Memory.lean ====
section
/-! DEFINITION. The 4096-byte memory (20_memory.md): what an unlisted address holds, reading and writing one byte with the
range check of R63, and the multi-byte accesses made of them in ascending order of address (R74). -/

namespace Sys2Proof.Machine

/-- What an address holds that no write has reached: FONT at 0x000 to 0x04F, 0x00 above (10_state.md R31, R43). The FONT
bytes are the spec's default, log 2. -/
def Memory.unlisted (a : Nat) : Byte := Config.font.getD a 0

/-- The byte at an address. -/
def Memory.read : Memory → Nat → Byte
  | [], a => Memory.unlisted a
  | (k, b) :: rest, a => if k = a then b else Memory.read rest a

/-- The list with the pair of `a` put in its place. -/
def Memory.insert : Memory → Nat → Byte → Memory
  | [], a, b => [(a, b)]
  | (k, c) :: rest, a, b =>
    if a < k then (a, b) :: (k, c) :: rest
    else if a = k then (a, b) :: rest
    else (k, c) :: Memory.insert rest a b

/-- The list without the pair of `a`. -/
def Memory.erase : Memory → Nat → Memory
  | [], _ => []
  | (k, c) :: rest, a => if k = a then Memory.erase rest a else (k, c) :: Memory.erase rest a

/-- Memory with the byte at `a` replaced: writing what an unlisted address holds removes the pair. -/
def Memory.write (m : Memory) (a : Nat) (b : Byte) : Memory :=
  if b = Memory.unlisted a then Memory.erase m a else Memory.insert m a b

/-- The canonical form: addresses strictly rising, none above 0xFFF, no byte equal to what an unlisted address holds. -/
abbrev Memory.wf (m : Memory) : Prop :=
  m.Pairwise (fun c d => c.1 < d.1) ∧ ∀ c ∈ m, c.1 < Config.memSize ∧ c.2 ≠ Memory.unlisted c.1

/-- `MemRead(addr, 1)`: the address is an unbounded integer, checked against 0xFFF (00_scope.md R9, 20_memory.md R63). -/
def memRead (m : Memory) (addr : Nat) : Except Error Byte :=
  if addr ≤ 0xFFF then .ok (m.read addr) else .error (.outOfBoundsAccess addr)

/-- `MemWrite(addr, 1, b)`, with the same check (R9, R63). -/
def memWrite (m : Memory) (addr : Nat) (b : Byte) : Except Error Memory :=
  if addr ≤ 0xFFF then .ok (m.write addr b) else .error (.outOfBoundsAccess addr)

/-- The bytes at `addr`, `addr + 1`, ..., `count` of them, in ascending order; the first address out of range ends it
(R63, R74). -/
def readBytes (m : Memory) : (addr count : Nat) → Except Error (List Byte)
  | _, 0 => .ok []
  | addr, count + 1 =>
    match memRead m addr with
    | .error e => .error e
    | .ok b =>
      match readBytes m (addr + 1) count with
      | .error e => .error e
      | .ok bs => .ok (b :: bs)

/-- Memory with the bytes stored at `addr`, `addr + 1`, ..., in ascending order; the first address out of range ends it
(R63, R74). -/
def writeBytes (m : Memory) : (addr : Nat) → List Byte → Except Error Memory
  | _, [] => .ok m
  | addr, b :: bs =>
    match memWrite m addr b with
    | .error e => .error e
    | .ok m' => writeBytes m' (addr + 1) bs

/-- What a store of `count` bytes at `addr` that faults may leave: every byte it covers that lies in range holds a free
value (60_exceptions.md R216, 93_implementation_defined.md U1). Log 8. -/
def scribbleBytes (m : Memory) (draw addr : Nat) : (count : Nat) → Memory
  | 0 => m
  | count + 1 =>
    let m' := scribbleBytes m draw addr count
    if addr + count ≤ 0xFFF then m'.write (addr + count) (Config.freeByte draw count) else m'

end Sys2Proof.Machine
end

