-- ==== Sys2Proof/Machine/Ops.lean ====
section
/-! DEFINITION. The named operations over the state: the primitives of 00_scope.md R9, the pixel cells, the ends of a
step (40_step_cycle.md R126), taking an error (60_exceptions.md R217) and what a fault in mid-instruction leaves
(R216). -/

namespace Sys2Proof.Machine

/-- What a step answers. -/
abbrev Outcome := Host.Outcome State Fault Refusal

/-! ### Registers -/

/-- `V[x]`. -/
def State.readV (s : State) (x : RegIdx) : Byte := s.v[x]

/-- `V[x] <- b`. -/
def State.writeV (s : State) (x : RegIdx) (b : Byte) : State := { s with v := s.v.set x b }

/-- A register file with the first registers replaced by the bytes given. -/
def loadRegs (v : Vector Byte 16) (bs : List Byte) : Vector Byte 16 :=
  Vector.ofFn fun j : RegIdx => bs.getD j.val v[j]

/-- `V[0] <- bs[0]`, `V[1] <- bs[1]`, ... for as many registers as bytes are given. -/
def State.loadV (s : State) (bs : List Byte) : State := { s with v := loadRegs s.v bs }

/-- `I <- a`. -/
def State.writeI (s : State) (a : Word) : State := { s with i := a }

/-- `pc <- t` (modulo 65536, 00_scope.md R9). -/
def State.writePc (s : State) (t : Word) : State := { s with pc := t }

/-- `pc <- a + 2`, where `a`, the address of the instruction, is what PC holds during the handler
(40_step_cycle.md R124, R125). -/
def State.advance (s : State) : State := s.writePc (s.pc + 2)

/-- `pc <- a + 4` when the condition holds, else `pc <- a + 2` (42_skips.md R156). -/
def State.skipIf (s : State) (c : Bool) : State := if c then s.writePc (s.pc + 4) else s.advance

/-- `DT <- b`. -/
def State.writeDelay (s : State) (b : Byte) : State := { s with delayTimer := b }

/-- `ST <- b`. -/
def State.writeSound (s : State) (b : Byte) : State := { s with soundTimer := b }

/-- Memory replaced as a whole, after the accesses of Machine/Memory.lean. -/
def State.writeMemory (s : State) (m : Memory) : State := { s with memory := m }

/-! ### The pixel surface (10_state.md R36, R39) -/

/-- The row of the surface that the linear index `k` falls in; no index above 2047 is ever issued (20_memory.md R75). -/
def pxRow (px : Surface) (k : Nat) : BitVec 64 := px.getD (k / 64) 0

/-- `PxGet(k)`. -/
def pxGet (px : Surface) (k : Nat) : Bool := (pxRow px k).getLsbD (k % 64)

/-- `PxSet(k, b)`. -/
def pxSet (px : Surface) (k : Nat) (b : Bool) : Surface :=
  let bit := BitVec.twoPow 64 (k % 64)
  px.setIfInBounds (k / 64) (if b then pxRow px k ||| bit else pxRow px k &&& ~~~bit)

/-- `PxClear()`: every cell 0. -/
def pxClear : Surface := Vector.replicate 32 0

/-- The surface with the given cells taken from another one. -/
def pxCopy (source : Surface) (cells : List Nat) (px : Surface) : Surface :=
  cells.foldl (fun p k => pxSet p k (pxGet source k)) px

/-- The surface replaced as a whole. -/
def State.writePx (s : State) (px : Surface) : State := { s with px := px }

/-- `draw_flag <- b`; the core itself only ever sets it (10_state.md R33). -/
def State.writeDrawFlag (s : State) (b : Bool) : State := { s with drawFlag := b }

/-! ### The keypad (10_state.md R34) -/

/-- `Key(k)`: the flag of key `k`. -/
def State.key (s : State) (k : Fin 16) : Bool := s.keypad[k]

/-- The keys pressed now, in ascending order. -/
def State.pressedKeys (s : State) : List (Fin 16) := (List.finRange 16).filter s.key

/-! ### The stack (10_state.md R27, R28) -/

/-- `stack[sp] <- ret; SP <- SP + 1`. Nothing on a full stack, which 2NNN tests for first. -/
def State.push (s : State) (ret : Word) : State :=
  if h : s.sp.val < 16 then
    { s with stack := s.stack.set s.sp.val ret, sp := ⟨s.sp.val + 1, Nat.succ_lt_succ h⟩ }
  else s

/-- `SP <- SP - 1`. The entry popped is not erased. Nothing on an empty stack, which 00EE tests for first. -/
def State.pop (s : State) : State :=
  { s with sp := ⟨s.sp.val - 1, Nat.lt_of_le_of_lt (Nat.sub_le _ _) s.sp.isLt⟩ }

/-- `stack[SP]`, read by 00EE after the decrement. A full stack has no such entry and 00EE never reads it. -/
def State.topEntry (s : State) : Word := s.stack.getD s.sp.val 0

/-! ### Free values -/

/-- `Rnd()`: one byte from the random source (10_state.md R35). Log 6. -/
def State.rndByte (s : State) : Byte := Config.randomByte s.rndCalls

/-- One call of the random source has been made. -/
def State.countRnd (s : State) : State := { s with rndCalls := s.rndCalls + 1 }

/-- One draw of the other free values has been made. -/
def State.countDraw (s : State) : State := { s with freeDraws := s.freeDraws + 1 }

/-- Any member of a list that is not empty: a free choice, unless there is one member only
(46_timers_and_keys.md R201, decision D15). Log 7. -/
def pickKey (draw : Nat) (k : Fin 16) : List (Fin 16) → Fin 16
  | [] => k
  | rest@(_ :: _) => (k :: rest).getD (Config.keyChoice draw % (rest.length + 1)) k

/-! ### The end of a step (40_step_cycle.md R126) -/

/-- The result a step ends with, the core's output (10_state.md R41). Log 5. -/
def State.latchResult (s : State) (r : StepResult) : State := { s with result := some r }

/-- `halted <- e` (10_state.md R42). -/
def State.latchHalted (s : State) (e : Error) : State := { s with halted := some e }

/-- `return Ok`. -/
def finish (s : State) : Outcome := .next (s.latchResult .ok)

/-- `return Pending`. -/
def pend (s : State) : Outcome := .next (s.latchResult .pending)

/-- TAKING AN ERROR, `raise e` (00_scope.md R9, 60_exceptions.md R217): the step's result is `Err(e)` and the latch
`halted` takes `e`. PC keeps the address of the instruction; there is no vector and no saved register. The only way on is
`reset()` (R218): there is no return from it. -/
def raise (e : Error) (s : State) : Outcome := .next ((s.latchHalted e).latchResult (.err e))

/-- An effective address, `EA = I + k`: an unbounded integer, no wrap at 12 or 16 bits (44_index_and_memory.md R186,
20_memory.md R63). -/
def State.ea (s : State) (k : Nat) : Nat := s.i.toNat + k

/-! ### What an OutOfBoundsAccess leaves (60_exceptions.md R216, 93_implementation_defined.md U1). Log 8. -/

/-- Whether the first access of an instruction that accesses I, I + 1, ... succeeds. Only then does a later one fail in the
middle of the instruction (U1). -/
def State.firstAccessOk (s : State) : Bool := s.ea 0 ≤ 0xFFF

/-- A store that fails in the middle: the bytes of memory it may write hold free values. -/
def State.scribbleMemory (s : State) (addr count : Nat) : State :=
  (s.writeMemory (scribbleBytes s.memory s.freeDraws addr count)).countDraw

/-- A load of `count` registers that fails in the middle: the registers it may write hold free values. -/
def State.scribbleV (s : State) (count : Nat) : State :=
  (s.loadV ((List.range count).map (Config.freeByte s.freeDraws))).countDraw

/-- A draw over the given cells that fails in the middle: those cells, VF and draw_flag hold free values. -/
def State.scribblePx (s : State) (cells : List Nat) : State :=
  (((s.writePx (pxCopy (Config.freePixels s.freeDraws) cells s.px)).writeV regVF
    (Config.freeByte s.freeDraws 0)).writeDrawFlag (Config.freeFlag s.freeDraws)).countDraw

/-- A draw whose first row cannot be read: VF, which the handler clears before it reads, holds a free value
(45_display.md R191). -/
def State.scribbleVf (s : State) : State := (s.writeV regVF (Config.freeByte s.freeDraws 0)).countDraw

end Sys2Proof.Machine
end

