-- ==== Sys2Proof/Machine/Operands.lean ====
section
/-! DEFINITION. The operand forms: a register, an immediate with zeros above it, the registers V[0] to V[X], the decimal
digits of a byte, a key number, and the cells a sprite covers. -/

namespace Sys2Proof.Machine

/-- `zext_16(NNN)` (30_encoding.md R93). -/
def zextAddr (nnn : Addr12) : Word := nnn.setWidth 16

/-- `zext_16(V[X])` (R93). -/
def zextByte (b : Byte) : Word := b.setWidth 16

/-- The values of `V[0]` to `V[x]`, in ascending order (44_index_and_memory.md R184). -/
def State.firstRegs (s : State) (x : RegIdx) : List Byte := s.v.toList.take (x.val + 1)

/-- How many registers FX55 and FX65 move: `x + 1` (R184, R185). -/
def regCount (x : RegIdx) : Nat := x.val + 1

/-- The decimal digits of a byte: hundreds, tens, ones, each in a byte of its own (R183). -/
def decimalDigits (b : Byte) : List Byte :=
  [BitVec.ofNat 8 (b.toNat / 100), BitVec.ofNat 8 (b.toNat / 10 % 10), BitVec.ofNat 8 (b.toNat % 10)]

/-- The address of the glyph of a byte: the whole value times 5, not reduced to a digit (R182). -/
def glyphAddr (b : Byte) : Word := zextByte b * 5

/-- The key a register value names: only 0 to 15 are keys (42_skips.md R154, decision D9). -/
def keyOf (b : Byte) : Option (Fin 16) := if h : b.toNat < 16 then some ⟨b.toNat, h⟩ else none

/-- The cell of sprite row `row` and column `col` of a sprite at column `x` and row `y`: the whole 8-bit coordinates are
used and the linear index wraps (45_display.md R192, decision D12). -/
def pixelIndex (x y : Byte) (row col : Nat) : Nat := ((x.toNat + col) + (y.toNat + row) * 64) % 2048

/-- Whether column `col` of a sprite row is lit: bit 7 is column 0 (R192). -/
def spriteBit (b : Byte) (col : Nat) : Bool := b.getLsbD (7 - col)

/-- The cells a sprite of `n` rows covers, row by row. -/
def coveredCells (x y : Byte) (n : Nat) : List Nat :=
  (List.range n).flatMap fun row => (List.range 8).map fun col => pixelIndex x y row col

end Sys2Proof.Machine
end

