-- ==== Sys2Proof/Machine/Flags.lean ====
section
/-! DEFINITION. Every flag computation: what the five ALU instructions write to VF (43_load_and_alu.md R168), the order in
which they write it, and the collision of a blit (45_display.md R194). -/

namespace Sys2Proof.Machine

/-- A condition as the flag value 1 or 0 (10_state.md R22). -/
def flagByte (c : Bool) : Byte := if c then 1 else 0

/-- 8XY4: 1 when the true sum is above 255 (R166). -/
def carryFlag (a b : Byte) : Byte := flagByte (decide (a.toNat + b.toNat > 255))

/-- 8XY5 and, with its operands the other way round, 8XY7: 1 when the first is strictly greater, so 0 for equal operands
(R167, R171, 90_conflicts.md C3). -/
def greaterFlag (a b : Byte) : Byte := flagByte (decide (a.toNat > b.toNat))

/-- 8XY6: bit 0, the bit shifted out (R170). -/
def lowBitFlag (a : Byte) : Byte := a &&& 1

/-- 8XYE: bit 7, the bit shifted out (R172). -/
def highBitFlag (a : Byte) : Byte := (a &&& 0x80) >>> 7

/-- The two statements of a flag-writing ALU instruction, in order: the flag from the operands, then the result from the
operands as the registers then stand, so that VF as an operand of the second is the flag just written (R175,
decision D7). -/
def State.flagThenResult (s : State) (flag result : Byte → Byte → Byte) (x y : RegIdx) : State :=
  let s1 := s.writeV regVF (flag (s.readV x) (s.readV y))
  s1.writeV x (result (s1.readV x) (s1.readV y))

/-- One lit sprite bit over cell `k`: the cell flips, and there is a collision when it was set (45_display.md R194). -/
def plot (k : Nat) (acc : Surface × Bool) : Surface × Bool :=
  let old := pxGet acc.1 k
  (pxSet acc.1 k (!old), acc.2 || old)

/-- One sprite row: columns 0 to 7 in ascending order (R191, 20_memory.md R74). -/
def drawRow (x y : Byte) (row : Nat) (b : Byte) (acc : Surface × Bool) : Surface × Bool :=
  (List.range 8).foldl (fun acc col => if spriteBit b col then plot (pixelIndex x y row col) acc else acc) acc

/-- The rows of a sprite from `row` on, in ascending order. -/
def drawRows (x y : Byte) : (row : Nat) → List Byte → Surface × Bool → Surface × Bool
  | _, [], acc => acc
  | row, b :: bs, acc => drawRows x y (row + 1) bs (drawRow x y row b acc)

/-- The blit of a sprite: the surface after it, and whether any cell went from 1 to 0 (R191). -/
def blit (x y : Byte) (sprite : List Byte) (px : Surface) : Surface × Bool := drawRows x y 0 sprite (px, false)

end Sys2Proof.Machine
end

