-- ==== Sys2Proof/Machine/Alu.lean ====
section
/-! DEFINITION. Register load, ALU and random: 6XNN, 7XNN, 8XY0 to 8XYE, CXNN (43_load_and_alu.md). Every one ends with
`pc <- a + 2`. -/

namespace Sys2Proof.Machine

/-- `V[X] <- b`, `pc <- a + 2`. -/
def State.setAndAdvance (s : State) (x : RegIdx) (b : Byte) : Outcome := finish (s.writeV x b).advance

/-- A flag-writing ALU instruction (R175), then `pc <- a + 2`. -/
def State.flagOpAndAdvance (s : State) (flag result : Byte → Byte → Byte) (x y : RegIdx) : Outcome :=
  finish (s.flagThenResult flag result x y).advance

/-- 6XNN (R160). -/
def execLdi (x : RegIdx) (nn : Byte) (s : State) : Outcome := s.setAndAdvance x nn

/-- 7XNN (R161): no carry flag. -/
def execAddi (x : RegIdx) (nn : Byte) (s : State) : Outcome := s.setAndAdvance x (s.readV x + nn)

/-- 8XY0 (R162). -/
def execMov (x y : RegIdx) (s : State) : Outcome := s.setAndAdvance x (s.readV y)

/-- 8XY1 (R163): VF keeps its value. -/
def execOr (x y : RegIdx) (s : State) : Outcome := s.setAndAdvance x (s.readV x ||| s.readV y)

/-- 8XY2 (R164): VF keeps its value. -/
def execAnd (x y : RegIdx) (s : State) : Outcome := s.setAndAdvance x (s.readV x &&& s.readV y)

/-- 8XY3 (R165): VF keeps its value. -/
def execXor (x y : RegIdx) (s : State) : Outcome := s.setAndAdvance x (s.readV x ^^^ s.readV y)

/-- 8XY4 (R166). -/
def execAdd (x y : RegIdx) (s : State) : Outcome := s.flagOpAndAdvance carryFlag (fun a b => a + b) x y

/-- 8XY5 (R167). -/
def execSub (x y : RegIdx) (s : State) : Outcome := s.flagOpAndAdvance greaterFlag (fun a b => a - b) x y

/-- 8XY6 (R170): V[X] is shifted in place, V[Y] is not used. -/
def execShr (x y : RegIdx) (s : State) : Outcome :=
  s.flagOpAndAdvance (fun a _ => lowBitFlag a) (fun a _ => a >>> 1) x y

/-- 8XY7 (R171). -/
def execSubn (x y : RegIdx) (s : State) : Outcome :=
  s.flagOpAndAdvance (fun a b => greaterFlag b a) (fun a b => b - a) x y

/-- 8XYE (R172): V[X] is shifted in place, V[Y] is not used. -/
def execShl (x y : RegIdx) (s : State) : Outcome :=
  s.flagOpAndAdvance (fun a _ => highBitFlag a) (fun a _ => a <<< 1) x y

/-- CXNN with the byte `r` from the random source. -/
def State.rndWith (s : State) (r : Byte) (x : RegIdx) (nn : Byte) : Outcome := s.countRnd.setAndAdvance x (r &&& nn)

/-- CXNN (R173): one call of the random source, also when NN = 0 (decision D26). -/
def execRnd (x : RegIdx) (nn : Byte) (s : State) : Outcome := s.rndWith s.rndByte x nn

end Sys2Proof.Machine
end

