-- ==== Sys2Proof/Machine/Control.lean ====
section
/-! DEFINITION. Control transfer: 00EE, 1NNN, 2NNN, BNNN (41_control_flow.md). -/

namespace Sys2Proof.Machine

/-- 00EE (R140): an empty stack is OutOfBoundsAccess(0), tested first (decision D8); else SP is decremented and PC is the
entry then read, plus 2. -/
def execRet (s : State) : Outcome :=
  if s.sp = 0 then raise (.outOfBoundsAccess 0) s
  else
    let s1 := s.pop
    finish (s1.writePc (s1.topEntry + 2))

/-- 1NNN (R141). -/
def execJp (nnn : Addr12) (s : State) : Outcome := finish (s.writePc (zextAddr nnn))

/-- 2NNN (R142): a full stack is OutOfBoundsAccess(16), tested first (decision D8); else the address of the call itself is
pushed. -/
def execCall (nnn : Addr12) (s : State) : Outcome :=
  if s.sp = 16 then raise (.outOfBoundsAccess 16) s
  else finish ((s.push s.pc).writePc (zextAddr nnn))

/-- BNNN (R143): V[0] plus NNN, not reduced to 12 bits. -/
def execJpv0 (nnn : Addr12) (s : State) : Outcome := finish (s.writePc (zextByte (s.readV 0) + zextAddr nnn))

end Sys2Proof.Machine
end

