-- ==== Sys2Proof/Machine/Display.lean ====
section
/-! DEFINITION. Display, draw flag and collision: 00E0, DXYN (45_display.md). -/

namespace Sys2Proof.Machine

/-- 00E0 (R190). -/
def execCls (s : State) : Outcome := finish ((s.writePx pxClear).writeDrawFlag true).advance

/-- DXYN (R191): V[X] and V[Y] are read once, first (R193). The sprite rows are read in ascending order, and the first
address above 0xFFF is an OutOfBoundsAccess. If it is the first row's, only VF is free; in the middle, the cells the sprite
covers, VF and draw_flag are (60_exceptions.md R216). Reading the rows before drawing them changes nothing that a step can show: drawing does not
write memory (log 18). -/
def execDrw (x y : RegIdx) (n : Nat) (s : State) : Outcome :=
  let col := s.readV x
  let row := s.readV y
  match readBytes s.memory (s.ea 0) n with
  | .error e => raise e (if s.firstAccessOk then s.scribblePx (coveredCells col row n) else s.scribbleVf)
  | .ok sprite =>
    let drawn := blit col row sprite s.px
    finish (((s.writePx drawn.1).writeV regVF (flagByte drawn.2)).writeDrawFlag true).advance

end Sys2Proof.Machine
end

