-- ==== Sys2Proof/Machine/Index.lean ====
section
/-! DEFINITION. The address register and memory: ANNN, FX1E, FX29, FX33, FX55, FX65 (44_index_and_memory.md). None writes
VF as a side effect, and the three that access memory leave I unchanged (R186). -/

namespace Sys2Proof.Machine

/-- ANNN (R180). -/
def execLda (nnn : Addr12) (s : State) : Outcome := finish (s.writeI (zextAddr nnn)).advance

/-- FX1E (R181): wraps at 16 bits, no flag (decision D10). -/
def execAdda (x : RegIdx) (s : State) : Outcome := finish (s.writeI (s.i + zextByte (s.readV x))).advance

/-- FX29 (R182). -/
def execLdf (x : RegIdx) (s : State) : Outcome := finish (s.writeI (glyphAddr (s.readV x))).advance

/-- Storing bytes at I, I + 1, ...: the first address above 0xFFF is an OutOfBoundsAccess and PC is not advanced (R186). If it
is I itself nothing is written; in the middle, the bytes the store covers are free (60_exceptions.md R216). -/
def State.storeAtI (s : State) (bs : List Byte) : Outcome :=
  match writeBytes s.memory (s.ea 0) bs with
  | .error e => raise e (if s.firstAccessOk then s.scribbleMemory (s.ea 0) bs.length else s)
  | .ok m => finish (s.writeMemory m).advance

/-- FX33 (R183). -/
def execBcd (x : RegIdx) (s : State) : Outcome := s.storeAtI (decimalDigits (s.readV x))

/-- FX55 (R184). -/
def execStm (x : RegIdx) (s : State) : Outcome := s.storeAtI (s.firstRegs x)

/-- FX65 (R185): if I itself is above 0xFFF no register is loaded; a later address above it leaves V[0] to V[X] free
(60_exceptions.md R216). -/
def execLdm (x : RegIdx) (s : State) : Outcome :=
  match readBytes s.memory (s.ea 0) (regCount x) with
  | .error e => raise e (if s.firstAccessOk then s.scribbleV (regCount x) else s)
  | .ok bs => finish (s.loadV bs).advance

end Sys2Proof.Machine
end

