-- ==== Sys2Proof/Machine/Skips.lean ====
section
/-! DEFINITION. Conditional skips: 3XNN, 4XNN, 5XY0, 9XY0, EX9E, EXA1 (42_skips.md). -/

namespace Sys2Proof.Machine

/-- 3XNN (R150). -/
def execSei (x : RegIdx) (nn : Byte) (s : State) : Outcome := finish (s.skipIf (s.readV x == nn))

/-- 4XNN (R151). -/
def execSnei (x : RegIdx) (nn : Byte) (s : State) : Outcome := finish (s.skipIf (s.readV x != nn))

/-- 5XY0 (R152). -/
def execSer (x y : RegIdx) (s : State) : Outcome := finish (s.skipIf (s.readV x == s.readV y))

/-- 9XY0 (R153). -/
def execSner (x y : RegIdx) (s : State) : Outcome := finish (s.skipIf (s.readV x != s.readV y))

/-- A skip on the flag of the key that V[X] names; a number above 15 is OutOfBoundsAccess(V[X]), tested first
(R154, decision D9). -/
def State.skipOnKey (s : State) (x : RegIdx) (pressed : Bool) : Outcome :=
  match keyOf (s.readV x) with
  | none => raise (.outOfBoundsAccess (s.readV x).toNat) s
  | some k => finish (s.skipIf (s.key k == pressed))

/-- EX9E (R154). -/
def execSkp (x : RegIdx) (s : State) : Outcome := s.skipOnKey x true

/-- EXA1 (R155). -/
def execSknp (x : RegIdx) (s : State) : Outcome := s.skipOnKey x false

end Sys2Proof.Machine
end

