-- ==== Sys2Proof/Machine/Timers.lean ====
section
/-! DEFINITION. Timers and key wait: FX07, FX0A, FX15, FX18 (46_timers_and_keys.md). -/

namespace Sys2Proof.Machine

/-- FX07 (R200). -/
def execLddt (x : RegIdx) (s : State) : Outcome := finish (s.writeV x s.delayTimer).advance

/-- FX0A (R201): level-sensitive. With no key pressed nothing is written and the step is Pending; with one or more the
number of any one of them is stored (log 7). -/
def execLdk (x : RegIdx) (s : State) : Outcome :=
  match s.pressedKeys with
  | [] => pend s
  | k :: rest =>
    finish (s.countDraw.writeV x (BitVec.ofNat 8 (pickKey s.freeDraws k rest).val)).advance

/-- FX15 (R202). -/
def execStdt (x : RegIdx) (s : State) : Outcome := finish (s.writeDelay (s.readV x)).advance

/-- FX18 (R203). -/
def execStst (x : RegIdx) (s : State) : Outcome := finish (s.writeSound (s.readV x)).advance

end Sys2Proof.Machine
end

