-- ==== Sys2Proof/Syntax.lean ====
section
/-! DEFINITION. The instructions: one constructor per row of spec/opcode_table.json (30_encoding.md R96), in the
table's order, named by the spec's mnemonic. -/

namespace Sys2Proof

/-- The 34 instructions. `x`, `y` are register indices, `nn` an 8-bit immediate, `nnn` a 12-bit address, `n` the
number of sprite rows, a count (30_encoding.md R92, R93). -/
inductive Instr where
  /-- 00E0, clear the surface (45_display.md R190). -/
  | cls
  /-- 00EE, return from subroutine (41_control_flow.md R140). -/
  | ret
  /-- 1NNN, jump (R141). -/
  | jp (nnn : Addr12)
  /-- 2NNN, call subroutine (R142). -/
  | call (nnn : Addr12)
  /-- 3XNN, skip if register equals immediate (42_skips.md R150). -/
  | sei (x : RegIdx) (nn : Byte)
  /-- 4XNN, skip if register differs from immediate (R151). -/
  | snei (x : RegIdx) (nn : Byte)
  /-- 5XY0, skip if registers are equal (R152). -/
  | ser (x y : RegIdx)
  /-- 6XNN, load immediate (43_load_and_alu.md R160). -/
  | ldi (x : RegIdx) (nn : Byte)
  /-- 7XNN, add immediate (R161). -/
  | addi (x : RegIdx) (nn : Byte)
  /-- 8XY0, copy register (R162). -/
  | mov (x y : RegIdx)
  /-- 8XY1, bitwise or (R163). -/
  | or (x y : RegIdx)
  /-- 8XY2, bitwise and (R164). -/
  | and (x y : RegIdx)
  /-- 8XY3, bitwise exclusive or (R165). -/
  | xor (x y : RegIdx)
  /-- 8XY4, add with carry flag (R166). -/
  | add (x y : RegIdx)
  /-- 8XY5, subtract, V[X] minus V[Y] (R167). -/
  | sub (x y : RegIdx)
  /-- 8XY6, shift right by one (R170). The Y field is in the word and ignored by the operation. -/
  | shr (x y : RegIdx)
  /-- 8XY7, subtract reversed, V[Y] minus V[X] (R171). -/
  | subn (x y : RegIdx)
  /-- 8XYE, shift left by one (R172). The Y field is in the word and ignored by the operation. -/
  | shl (x y : RegIdx)
  /-- 9XY0, skip if registers differ (42_skips.md R153). -/
  | sner (x y : RegIdx)
  /-- ANNN, load I (44_index_and_memory.md R180). -/
  | lda (nnn : Addr12)
  /-- BNNN, jump with offset V[0] (41_control_flow.md R143). -/
  | jpv0 (nnn : Addr12)
  /-- CXNN, random byte and mask (43_load_and_alu.md R173). -/
  | rnd (x : RegIdx) (nn : Byte)
  /-- DXYN, draw a sprite of n rows (45_display.md R191). -/
  | drw (x y : RegIdx) (n : Nat)
  /-- EX9E, skip if key pressed (42_skips.md R154). -/
  | skp (x : RegIdx)
  /-- EXA1, skip if key not pressed (R155). -/
  | sknp (x : RegIdx)
  /-- FX07, read the delay timer (46_timers_and_keys.md R200). -/
  | lddt (x : RegIdx)
  /-- FX0A, wait for a key (R201). -/
  | ldk (x : RegIdx)
  /-- FX15, write the delay timer (R202). -/
  | stdt (x : RegIdx)
  /-- FX18, write the sound timer (R203). -/
  | stst (x : RegIdx)
  /-- FX1E, add register to I (44_index_and_memory.md R181). -/
  | adda (x : RegIdx)
  /-- FX29, glyph address (R182). -/
  | ldf (x : RegIdx)
  /-- FX33, store the three decimal digits (R183). -/
  | bcd (x : RegIdx)
  /-- FX55, store V[0] to V[X] (R184). -/
  | stm (x : RegIdx)
  /-- FX65, load V[0] to V[X] (R185). -/
  | ldm (x : RegIdx)
  deriving DecidableEq, Repr

end Sys2Proof
end

