-- ==== Sys2Proof/WellFormed.lean ====
section
/-! DEFINITION. Which terms of `Instr` are instructions of the machine. Register indices and immediates carry their
bounds in their types (30_encoding.md R92, R93); the one operand held as a plain number is the row count of DXYN. -/

namespace Sys2Proof

/-- An instruction is well formed when its operands fit their fields: N is an unsigned 4-bit value, 0 to 15
(30_encoding.md R93). -/
def Instr.WellFormed : Instr → Bool
  | .drw _ _ n => n < 16
  | .cls | .ret | .jp _ | .call _ | .sei _ _ | .snei _ _ | .ser _ _ | .ldi _ _ | .addi _ _ | .mov _ _ | .or _ _
  | .and _ _ | .xor _ _ | .add _ _ | .sub _ _ | .shr _ _ | .subn _ _ | .shl _ _ | .sner _ _ | .lda _ | .jpv0 _
  | .rnd _ _ | .skp _ | .sknp _ | .lddt _ | .ldk _ | .stdt _ | .stst _ | .adda _ | .ldf _ | .bcd _ | .stm _
  | .ldm _ => true

end Sys2Proof
end

