-- ==== Sys2Proof/Decode.lean ====
section
/-! DEFINITION. The decoder (30_encoding.md R94 to R100), total on any bytes and rejecting by name, and after it the
encoder (R91, R102) with each row's match, mask and ignored bits (R96). -/

namespace Sys2Proof

/-! ### Fields of a word (00_scope.md R8) -/

/-- `X = op[11:8]`. -/
def fieldX (op : Word) : RegIdx := (op.extractLsb' 8 4).toFin

/-- `Y = op[7:4]`. -/
def fieldY (op : Word) : RegIdx := (op.extractLsb' 4 4).toFin

/-- `N = op[3:0]`, the sub-opcode of the 8 family or the row count of DXYN. -/
def fieldN (op : Word) : BitVec 4 := op.extractLsb' 0 4

/-- `NN = op[7:0]`, an immediate or the selector byte of the F family. -/
def fieldNN (op : Word) : Byte := op.extractLsb' 0 8

/-- `NNN = op[11:0]`. -/
def fieldNNN (op : Word) : Addr12 := op.extractLsb' 0 12

/-! ### The decoder -/

/-- Why bytes are no instruction. Every word that is rejected is an unknown opcode (30_encoding.md R100). -/
inductive DecodeError where
  /-- The family key has no handler: keys 0x0000 and 0xE000 (R95). -/
  | noHandler (op : Word)
  /-- The family is 8 or F and the second level has no such selector (R97, decision D4). -/
  | noSelector (op : Word)
  /-- Fewer than the two bytes of an instruction were given (R90). -/
  | tooFewBytes
  deriving DecidableEq, Repr

/-- First level: the five tests, in order (R94). -/
def familyKey (op : Word) : Word :=
  if op &&& 0xFFEE = 0x00EE then 0x00EE
  else if op &&& 0xFFEF = 0x00E0 then 0x00E0
  else if op &&& 0xF0FF = 0xE09E then 0xE09E
  else if op &&& 0xF0FF = 0xE0A1 then 0xE0A1
  else op &&& 0xF000

/-- Second level of key 0x8000: the selector is `op[3:0]` (R97). -/
def decodeAlu (op : Word) : Except DecodeError Instr :=
  let x := fieldX op
  let y := fieldY op
  let sel := fieldN op
  if sel = 0x0 then .ok (.mov x y)
  else if sel = 0x1 then .ok (.or x y)
  else if sel = 0x2 then .ok (.and x y)
  else if sel = 0x3 then .ok (.xor x y)
  else if sel = 0x4 then .ok (.add x y)
  else if sel = 0x5 then .ok (.sub x y)
  else if sel = 0x6 then .ok (.shr x y)
  else if sel = 0x7 then .ok (.subn x y)
  else if sel = 0xE then .ok (.shl x y)
  else .error (.noSelector op)

/-- Second level of key 0xF000: the selector is the whole low byte `op[7:0]` (R97). -/
def decodeMisc (op : Word) : Except DecodeError Instr :=
  let x := fieldX op
  let sel := fieldNN op
  if sel = 0x07 then .ok (.lddt x)
  else if sel = 0x0A then .ok (.ldk x)
  else if sel = 0x15 then .ok (.stdt x)
  else if sel = 0x18 then .ok (.stst x)
  else if sel = 0x1E then .ok (.adda x)
  else if sel = 0x29 then .ok (.ldf x)
  else if sel = 0x33 then .ok (.bcd x)
  else if sel = 0x55 then .ok (.stm x)
  else if sel = 0x65 then .ok (.ldm x)
  else .error (.noSelector op)

/-- The decoder: the fixed table of 18 keys (R95), then the second level where a key has several instructions (R97).
Keys 0x5000 and 0x9000 have one instruction each and their low nibble is not looked at (R98). It depends on the word
alone (R106). -/
def decode (op : Word) : Except DecodeError Instr :=
  let key := familyKey op
  if key = 0x00E0 then .ok .cls
  else if key = 0x00EE then .ok .ret
  else if key = 0x1000 then .ok (.jp (fieldNNN op))
  else if key = 0x2000 then .ok (.call (fieldNNN op))
  else if key = 0x3000 then .ok (.sei (fieldX op) (fieldNN op))
  else if key = 0x4000 then .ok (.snei (fieldX op) (fieldNN op))
  else if key = 0x5000 then .ok (.ser (fieldX op) (fieldY op))
  else if key = 0x6000 then .ok (.ldi (fieldX op) (fieldNN op))
  else if key = 0x7000 then .ok (.addi (fieldX op) (fieldNN op))
  else if key = 0x8000 then decodeAlu op
  else if key = 0x9000 then .ok (.sner (fieldX op) (fieldY op))
  else if key = 0xA000 then .ok (.lda (fieldNNN op))
  else if key = 0xB000 then .ok (.jpv0 (fieldNNN op))
  else if key = 0xC000 then .ok (.rnd (fieldX op) (fieldNN op))
  else if key = 0xD000 then .ok (.drw (fieldX op) (fieldY op) (fieldN op).toNat)
  else if key = 0xE09E then .ok (.skp (fieldX op))
  else if key = 0xE0A1 then .ok (.sknp (fieldX op))
  else if key = 0xF000 then decodeMisc op
  else .error (.noHandler op)

/-- The two bytes of a word as they lie in memory, the high byte at the lower address (20_memory.md R65). -/
def wordBytes (op : Word) : Byte × Byte := (op.extractLsb' 8 8, op.extractLsb' 0 8)

/-- The word of two bytes in memory order: `memory[PC] << 8 | memory[PC+1]` (40_step_cycle.md R121). -/
def wordOfBytes (hi lo : Byte) : Word := hi ++ lo

/-- Decoding a list of bytes: the instruction its first two bytes hold, and the bytes after it (R90). -/
def decodeBytes : List Byte → Except DecodeError (Instr × List Byte)
  | hi :: lo :: rest =>
    match decode (wordOfBytes hi lo) with
    | .ok i => .ok (i, rest)
    | .error e => .error e
  | _ => .error .tooFewBytes

/-! ### The encoder (R91, R102) -/

/-- A register index as its 4-bit field. -/
def regBits (x : RegIdx) : BitVec 4 := BitVec.ofNat 4 x.val

/-- Format A: family, NNN. -/
def formatA (family : BitVec 4) (nnn : Addr12) : Word := family ++ nnn

/-- Format XI: family, X, NN. -/
def formatXI (family : BitVec 4) (x : RegIdx) (nn : Byte) : Word := family ++ regBits x ++ nn

/-- Format XY: family, X, Y, sub-opcode. -/
def formatXY (family : BitVec 4) (x y : RegIdx) (sub : BitVec 4) : Word := family ++ regBits x ++ regBits y ++ sub

/-- Format XK: family, X, fixed byte. -/
def formatXK (family : BitVec 4) (x : RegIdx) (fixed : Byte) : Word := family ++ regBits x ++ fixed

/-- The canonical word of an instruction: format Z is the fixed word, and 5XY0 and 9XY0 have a low nibble of 0
(R98, R102). -/
def encode : Instr → Word
  | .cls => 0x00E0
  | .ret => 0x00EE
  | .jp nnn => formatA 0x1 nnn
  | .call nnn => formatA 0x2 nnn
  | .sei x nn => formatXI 0x3 x nn
  | .snei x nn => formatXI 0x4 x nn
  | .ser x y => formatXY 0x5 x y 0x0
  | .ldi x nn => formatXI 0x6 x nn
  | .addi x nn => formatXI 0x7 x nn
  | .mov x y => formatXY 0x8 x y 0x0
  | .or x y => formatXY 0x8 x y 0x1
  | .and x y => formatXY 0x8 x y 0x2
  | .xor x y => formatXY 0x8 x y 0x3
  | .add x y => formatXY 0x8 x y 0x4
  | .sub x y => formatXY 0x8 x y 0x5
  | .shr x y => formatXY 0x8 x y 0x6
  | .subn x y => formatXY 0x8 x y 0x7
  | .shl x y => formatXY 0x8 x y 0xE
  | .sner x y => formatXY 0x9 x y 0x0
  | .lda nnn => formatA 0xA nnn
  | .jpv0 nnn => formatA 0xB nnn
  | .rnd x nn => formatXI 0xC x nn
  | .drw x y n => formatXY 0xD x y (BitVec.ofNat 4 n)
  | .skp x => formatXK 0xE x 0x9E
  | .sknp x => formatXK 0xE x 0xA1
  | .lddt x => formatXK 0xF x 0x07
  | .ldk x => formatXK 0xF x 0x0A
  | .stdt x => formatXK 0xF x 0x15
  | .stst x => formatXK 0xF x 0x18
  | .adda x => formatXK 0xF x 0x1E
  | .ldf x => formatXK 0xF x 0x29
  | .bcd x => formatXK 0xF x 0x33
  | .stm x => formatXK 0xF x 0x55
  | .ldm x => formatXK 0xF x 0x65

/-- One row of the opcode map: a word selects the row whose `(op & mask) == match` (R96); the ignored bits are those
that no field and no test looks at (R98, R99). -/
structure OpcodeRow where
  /-- The column "match". -/
  pattern : Word
  /-- The column "mask". -/
  mask : Word
  /-- The bits of an alias word that may differ from the canonical one. -/
  ignored : Word
  deriving DecidableEq, Repr

/-- The row of the opcode map an instruction belongs to (R96). -/
def opcodeRow : Instr → OpcodeRow
  | .cls => ⟨0x00E0, 0xFFEF, 0x0010⟩
  | .ret => ⟨0x00EE, 0xFFEE, 0x0011⟩
  | .jp _ => ⟨0x1000, 0xF000, 0⟩
  | .call _ => ⟨0x2000, 0xF000, 0⟩
  | .sei _ _ => ⟨0x3000, 0xF000, 0⟩
  | .snei _ _ => ⟨0x4000, 0xF000, 0⟩
  | .ser _ _ => ⟨0x5000, 0xF000, 0x000F⟩
  | .ldi _ _ => ⟨0x6000, 0xF000, 0⟩
  | .addi _ _ => ⟨0x7000, 0xF000, 0⟩
  | .mov _ _ => ⟨0x8000, 0xF00F, 0⟩
  | .or _ _ => ⟨0x8001, 0xF00F, 0⟩
  | .and _ _ => ⟨0x8002, 0xF00F, 0⟩
  | .xor _ _ => ⟨0x8003, 0xF00F, 0⟩
  | .add _ _ => ⟨0x8004, 0xF00F, 0⟩
  | .sub _ _ => ⟨0x8005, 0xF00F, 0⟩
  | .shr _ _ => ⟨0x8006, 0xF00F, 0⟩
  | .subn _ _ => ⟨0x8007, 0xF00F, 0⟩
  | .shl _ _ => ⟨0x800E, 0xF00F, 0⟩
  | .sner _ _ => ⟨0x9000, 0xF000, 0x000F⟩
  | .lda _ => ⟨0xA000, 0xF000, 0⟩
  | .jpv0 _ => ⟨0xB000, 0xF000, 0⟩
  | .rnd _ _ => ⟨0xC000, 0xF000, 0⟩
  | .drw _ _ _ => ⟨0xD000, 0xF000, 0⟩
  | .skp _ => ⟨0xE09E, 0xF0FF, 0⟩
  | .sknp _ => ⟨0xE0A1, 0xF0FF, 0⟩
  | .lddt _ => ⟨0xF007, 0xF0FF, 0⟩
  | .ldk _ => ⟨0xF00A, 0xF0FF, 0⟩
  | .stdt _ => ⟨0xF015, 0xF0FF, 0⟩
  | .stst _ => ⟨0xF018, 0xF0FF, 0⟩
  | .adda _ => ⟨0xF01E, 0xF0FF, 0⟩
  | .ldf _ => ⟨0xF029, 0xF0FF, 0⟩
  | .bcd _ => ⟨0xF033, 0xF0FF, 0⟩
  | .stm _ => ⟨0xF055, 0xF0FF, 0⟩
  | .ldm _ => ⟨0xF065, 0xF0FF, 0⟩

/-- The instruction the decoder reads from the bits `w` of an opcode-table row of `nbits` bits. Every instruction is one
16-bit word (R90), laid out high byte first (20_memory.md R65); bits above `nbits` are 0. -/
def decodeTableWord (nbits w : Nat) : Option Instr :=
  let bytes := wordBytes (BitVec.ofNat 16 (w % 2 ^ nbits))
  match decodeBytes [bytes.1, bytes.2] with
  | .ok (i, _) => some i
  | .error _ => none

end Sys2Proof
end

