-- ==== Sys2Proof/Machine/Fetch.lean ====
section
/-! DEFINITION. Fetching an instruction word (40_step_cycle.md R121, R122) and placing one where it is fetched. -/

namespace Sys2Proof.Machine

/-- Whether both bytes of the instruction are in memory: PC from 0 to 0x0FFE, even or odd (R121, 20_memory.md R64). -/
def State.canFetch (s : State) : Bool := s.pc.toNat ≤ 0x0FFE

/-- The word at PC, high byte first (R121, 20_memory.md R65). -/
def State.fetchWord (s : State) : Word :=
  wordOfBytes (s.memory.read s.pc.toNat) (s.memory.read (s.pc.toNat + 1))

/-- `current_opcode <- op`, before the decode (R122). -/
def State.latchOpcode (s : State) (op : Word) : State := { s with currentOpcode := op }

/-- A byte placed in memory from outside; an address that does not exist takes nothing. -/
def State.placeByte (s : State) (a : Nat) (b : Byte) : State :=
  if a ≤ 0xFFF then s.writeMemory (s.memory.write a b) else s

/-- A word placed at PC, high byte first. -/
def State.placeWord (s : State) (op : Word) : State :=
  (s.placeByte s.pc.toNat (wordBytes op).1).placeByte (s.pc.toNat + 1) (wordBytes op).2

end Sys2Proof.Machine
end

