-- ==== Sys2Proof/Machine/Step.lean ====
section
/-! DEFINITION. One step: fetch, decode, execute, in this order (40_step_cycle.md R120). -/

namespace Sys2Proof.Machine

/-- `step()` (R120). A halted core takes no step (10_state.md R42). The first failing phase decides
(60_exceptions.md R215), and its error is taken: a PC above 0x0FFE is OutOfBoundsFetch(PC) with nothing else changed
(R212), a word that is no instruction is UnknownOpcode(op) with current_opcode written (R211). -/
def step (s : State) : Host.Outcome State Fault Refusal :=
  match s.halted with
  | some e => .fault (.stepWhileHalted e)
  | none =>
    if s.canFetch then
      match decode s.fetchWord with
      | .ok i => exec i (s.latchOpcode s.fetchWord)
      | .error _ => raise (.unknownOpcode s.fetchWord) (s.latchOpcode s.fetchWord)
    else raise (.outOfBoundsFetch s.pc) s

/-- The state with the instruction of an opcode-table row's bits stored at PC, where the next step fetches it: the 16-bit
word, high byte first (20_memory.md R65), the bits above `nbits` zero. Log 13. -/
def State.withFetchWord (s : State) (nbits w : Nat) : State := s.placeWord (BitVec.ofNat 16 (w % 2 ^ nbits))

end Sys2Proof.Machine
end

