-- ==== Sys2Proof/Machine/Agents.lean ====
section
/-! DEFINITION. What the host does to the core between steps: `reset()` with the open values as arguments, the loader and
the moves of the external agents (10_state.md R38, R40, 70_reset_and_hazards.md R240 to R243). `step` makes none of these
moves (log 12). -/

namespace Sys2Proof.Machine

/-- Bytes put into memory at `addr`, `addr + 1`, ... -/
def Memory.place (m : Memory) : (addr : Nat) → List Byte → Memory
  | _, [] => m
  | addr, b :: bs => Memory.place (m.write addr b) (addr + 1) bs

/-- The parameter FONT at its default (10_state.md R31). -/
def defaultFont : Vector Byte 80 := ⟨Config.font.toArray, rfl⟩

/-- `reset()` for a FONT and for what the pixel cells happen to hold, the two values the spec leaves open
(10_state.md R43, decisions D2 and D14). -/
def State.resetWith (font : Vector Byte 80) (px : Surface) : State :=
  { State.reset with memory := Memory.place [] 0 font.toList, px := px }

/-- `reset()` of a running core, at any time (70_reset_and_hazards.md R240): the core does not own the pixel cells, which may
hold anything afterwards, and the free values already drawn, the random source's among them, do not come back (R241). -/
def State.resetAgain (s : State) (font : Vector Byte 80) (px : Surface) : State :=
  { State.resetWith font px with rndCalls := s.rndCalls, freeDraws := s.freeDraws }

/-- Why the loader fails (60_exceptions.md R214). That the file "cannot be opened/read" is outside the model. -/
inductive LoadFailure where
  /-- The image is longer than `4096 - 512` bytes. -/
  | memoryExhausted
  deriving DecidableEq, Repr

/-- `load(rom)`: the image, verbatim, at 0x200, after reset and before the first step (70_reset_and_hazards.md R243). -/
def load (rom : List Byte) (s : State) : Except LoadFailure State :=
  if rom.length ≤ 4096 - 512 then .ok (s.writeMemory (s.memory.place Config.programBase rom))
  else .error .memoryExhausted

/-- The moves of the external agents that change state, each between two steps (10_state.md R40). -/
inductive Move where
  /-- Input agent: key `k` goes down or up. -/
  | key (k : Fin 16) (down : Bool)
  /-- Timer agent: `if DT > 0 then DT <- DT - 1`. -/
  | tickDelay
  /-- Timer agent: `if ST > 0 then ST <- ST - 1`. -/
  | tickSound
  /-- Redraw agent: the consume-and-clear access of draw_flag (R41, decision D24). -/
  | consumeDrawFlag
  deriving DecidableEq, Repr

/-- A timer after one tick: never below zero (60_exceptions.md R224). -/
def tick (t : Byte) : Byte := if t = 0 then 0 else t - 1

/-- The flag a consume-and-clear access returns, and the state it leaves (10_state.md R41). -/
def State.consumeDrawFlag (s : State) : Bool × State := (s.drawFlag, s.writeDrawFlag false)

/-- The state after a move. -/
def Move.apply (m : Move) (s : State) : State :=
  match m with
  | .key k down => { s with keypad := s.keypad.set k down }
  | .tickDelay => s.writeDelay (tick s.delayTimer)
  | .tickSound => s.writeSound (tick s.soundTimer)
  | .consumeDrawFlag => s.consumeDrawFlag.2

end Sys2Proof.Machine
end

