-- ==== Sys2Proof/Safety.lean ====
section
/-! DEFINITION. The terms in which claims are stated: what a safe step is, the pieces of state and the access matrix of
10_state.md R44, the runs of the machine with its external agents, and its invariant. -/

namespace Sys2Proof.Machine

/-- A step that ends in no error. A state whose latch is set is never the final state of a run
(60_exceptions.md R216): a claim that a run gets somewhere is a claim about safe steps. -/
def SafeStep (s t : State) : Prop := step s = .next t ∧ t.halted = none

/-- "The program has ended": the word at PC is a jump to itself (40_step_cycle.md R128, decision D19). It is a definition for
stating claims, not a behaviour of the core. -/
def State.parked (s : State) : Prop := s.pc.toNat ≤ 0x0FFE ∧ s.fetchWord = 0x1000 ||| s.pc

/-! ### Pieces of state -/

/-- One piece of the state: a register, an entry, one byte of memory, one pixel cell, one key, or a latch. -/
inductive Piece where
  | v (x : RegIdx)
  | pc
  | i
  | stack (k : Fin 16)
  | sp
  | delayTimer
  | soundTimer
  | mem (addr : Nat)
  | currentOpcode
  | drawFlag
  | key (k : Fin 16)
  | pixel (k : Nat)
  | halted
  | result
  | rndCalls
  | freeDraws
  deriving DecidableEq, Repr

/-- The piece holds in `t` what it held in `s`. -/
def Piece.same (p : Piece) (s t : State) : Prop :=
  match p with
  | .v x => t.readV x = s.readV x
  | .pc => t.pc = s.pc
  | .i => t.i = s.i
  | .stack k => t.stack[k] = s.stack[k]
  | .sp => t.sp = s.sp
  | .delayTimer => t.delayTimer = s.delayTimer
  | .soundTimer => t.soundTimer = s.soundTimer
  | .mem addr => t.memory.read addr = s.memory.read addr
  | .currentOpcode => t.currentOpcode = s.currentOpcode
  | .drawFlag => t.drawFlag = s.drawFlag
  | .key k => t.key k = s.key k
  | .pixel k => pxGet t.px k = pxGet s.px k
  | .halted => t.halted = s.halted
  | .result => t.result = s.result
  | .rndCalls => t.rndCalls = s.rndCalls
  | .freeDraws => t.freeDraws = s.freeDraws

/-- Every piece of state is unchanged but those of `except`: every register, every entry, every byte of memory, every pixel
cell, every key and every latch. -/
def SameBut (except : Piece → Prop) (s t : State) : Prop := ∀ p : Piece, ¬ except p → p.same s t

/-- The row of the access matrix of 10_state.md R44 for an instruction: the pieces it may write beside PC, at a state `s`.
The column `halted` and the model's own counters are added: a piece that only a fault or a free value changes. -/
def matrixRow (i : Instr) (s : State) (p : Piece) : Prop :=
  match i with
  | .cls => p = .drawFlag ∨ ∃ k, p = .pixel k
  | .ret => p = .sp ∨ p = .halted
  | .call _ => p = .sp ∨ (∃ k : Fin 16, k.val = s.sp.val ∧ p = .stack k) ∨ p = .halted
  | .jp _ | .jpv0 _ | .sei _ _ | .snei _ _ | .ser _ _ | .sner _ _ => False
  | .skp _ | .sknp _ => p = .halted
  | .ldi x _ | .addi x _ | .mov x _ | .or x _ | .and x _ | .xor x _ | .lddt x => p = .v x
  | .add x _ | .sub x _ | .shr x _ | .subn x _ | .shl x _ => p = .v x ∨ p = .v regVF
  | .rnd x _ => p = .v x ∨ p = .rndCalls
  | .lda _ | .adda _ | .ldf _ => p = .i
  | .drw x y n =>
    p = .v regVF ∨ p = .drawFlag ∨
      (∃ row col, row < n ∧ col < 8 ∧ p = .pixel (pixelIndex (s.readV x) (s.readV y) row col)) ∨
      p = .halted ∨ p = .freeDraws
  | .ldk x => p = .v x ∨ p = .freeDraws
  | .stdt _ => p = .delayTimer
  | .stst _ => p = .soundTimer
  | .bcd _ => (∃ k, k < 3 ∧ p = .mem (s.ea k)) ∨ p = .halted ∨ p = .freeDraws
  | .stm x => (∃ k, k ≤ x.val ∧ p = .mem (s.ea k)) ∨ p = .halted ∨ p = .freeDraws
  | .ldm x => (∃ r : RegIdx, r ≤ x ∧ p = .v r) ∨ p = .halted ∨ p = .freeDraws

/-- What an instruction may write: PC, the step's result and its row of the access matrix (R44). -/
def mayWrite (i : Instr) (s : State) (p : Piece) : Prop := p = .pc ∨ p = .result ∨ matrixRow i s p

/-! ### How an instruction ends -/

/-- The instruction `i` runs to its end at `s`: `exec` answers a next state with the result Ok, in which `post` holds and
every piece of state but PC, the result and those of `except` is unchanged. -/
def Completes (i : Instr) (s : State) (except : Piece → Prop) (post : State → Prop) : Prop :=
  ∃ t, exec i s = .next t ∧ t.result = some .ok ∧ SameBut (fun p => p = .pc ∨ p = .result ∨ except p) s t ∧ post t

/-- The instruction `i` ends in the error `e` at `s`: `exec` answers a next state with the result Err(e) and the latch holding
`e`, in which every piece of state but those two and those of `except` is unchanged; PC is unchanged
(60_exceptions.md R216, R217). -/
def Raises (i : Instr) (s : State) (e : Error) (except : Piece → Prop) : Prop :=
  ∃ t, exec i s = .next t ∧ t.result = some (.err e) ∧ t.halted = some e ∧
    SameBut (fun p => p = .halted ∨ p = .result ∨ except p) s t

/-- The error an instruction ends in at `s`, if any (60_exceptions.md R213, R229). Of a run of `count` bytes from `addr` the
first address above 0xFFF is the larger of `addr` and 0x1000 (R215). -/
def raisedBy (i : Instr) (s : State) : Option Error :=
  let accessError (count : Nat) : Option Error :=
    if 0 < count ∧ 0x1000 < s.i.toNat + count then some (.outOfBoundsAccess (max s.i.toNat 0x1000)) else none
  let keyError (x : RegIdx) : Option Error :=
    if 15 < (s.readV x).toNat then some (.outOfBoundsAccess (s.readV x).toNat) else none
  match i with
  | .ret => if s.sp.val = 0 then some (.outOfBoundsAccess 0) else none
  | .call _ => if s.sp.val = 16 then some (.outOfBoundsAccess 16) else none
  | .skp x | .sknp x => keyError x
  | .drw _ _ n => accessError n
  | .bcd _ => accessError 3
  | .stm x | .ldm x => accessError (x.val + 1)
  | .cls | .jp _ | .sei _ _ | .snei _ _ | .ser _ _ | .ldi _ _ | .addi _ _ | .mov _ _ | .or _ _ | .and _ _ | .xor _ _
  | .add _ _ | .sub _ _ | .shr _ _ | .subn _ _ | .shl _ _ | .sner _ _ | .lda _ | .jpv0 _ | .rnd _ _ | .lddt _
  | .ldk _ | .stdt _ | .stst _ | .adda _ | .ldf _ => none

/-- The instructions with the default advance `pc <- a + 2` (10_state.md R24, 40_step_cycle.md R125). -/
def defaultAdvance : Instr → Bool
  | .cls | .ldi _ _ | .addi _ _ | .mov _ _ | .or _ _ | .and _ _ | .xor _ _ | .add _ _ | .sub _ _ | .shr _ _
  | .subn _ _ | .shl _ _ | .lda _ | .rnd _ _ | .drw _ _ _ | .lddt _ | .stdt _ | .stst _ | .adda _ | .ldf _ | .bcd _
  | .stm _ | .ldm _ => true
  | .ret | .jp _ | .call _ | .jpv0 _ | .sei _ _ | .snei _ _ | .ser _ _ | .sner _ _ | .skp _ | .sknp _ | .ldk _ => false

/-- The sprite of `n` rows at I lights cell `k`: some bit that is 1 lands there (45_display.md R191, R192). -/
def spriteLights (s : State) (x y : RegIdx) (n k : Nat) : Prop :=
  ∃ row col, row < n ∧ col < 8 ∧ (s.memory.read (s.i.toNat + row)).getLsbD (7 - col) = true ∧
    k = (((s.readV x).toNat + col) + ((s.readV y).toNat + row) * 64) % 2048

/-! ### Runs with the external agents (40_step_cycle.md R127) -/

/-- A state that a run can be in: the image is loaded after a reset, the first one or a later one, with any pixel contents
and any free values already drawn (70_reset_and_hazards.md R242, R244); then steps of the core and moves of the agents follow
in any order and number. -/
inductive Reachable (font : Vector Byte 80) : State → Prop
  | launch (s t : State) (px : Surface) (rom : List Byte) (h : load rom (s.resetAgain font px) = .ok t) :
      Reachable font t
  | step (s t : State) (hs : Reachable font s) (h : step s = .next t) : Reachable font t
  | move (s : State) (m : Move) (hs : Reachable font s) : Reachable font (m.apply s)

/-! ### The invariant -/

/-- What holds in every state of a run. -/
structure State.Inv (s : State) : Prop where
  /-- Memory has its canonical form. -/
  memory_wf : s.memory.wf
  /-- PC never reaches 65536 and no instruction writes a larger value than BNNN can (10_state.md R25). -/
  pc_le : s.pc.toNat ≤ 0x10FE
  /-- Every entry in use is the address of a 2NNN that was fetched (R25, R27). -/
  stack_le : ∀ k : Fin 16, k.val < s.sp.val → s.stack[k].toNat ≤ 0x0FFE
  /-- A core whose latch holds an error ended its last step in that error (R42). -/
  halted_result : ∀ e, s.halted = some e → s.result = some (.err e)
  /-- A core whose last step ended in an error holds it in the latch (R42). -/
  result_halted : ∀ e, s.result = some (.err e) → s.halted = some e

end Sys2Proof.Machine
end

