-- ==== Sys2Proof/Certificates/Slice0/Obligations.lean ====
section
/-! DEFINITION. The statements for the provers. Each is about every state, those included that no run reaches, unless an
invariant stands among its premises. -/

open Sys2Proof Sys2Proof.Machine

/-! ### Reset, loading and the moves of the host -/

/-- 10_state.md R43, 70_reset_and_hazards.md R240: `reset()` of any core, a halted one too, for every FONT and every contents
of the pixel cells. R43 leaves those at any value, and the statement says nothing of them. -/
def Obligations.ResetLeavesTheStatedValues : Prop :=
  ∀ (s : State) (font : Vector Byte 80) (px : Surface),
    let t := s.resetAgain font px
    t.pc = 0x0200 ∧ t.i = 0 ∧ t.sp.val = 0 ∧ (∀ a : Fin 80, t.memory.read a.val = font[a]) ∧
      (∀ a, 0x050 ≤ a → a ≤ 0xFFF → t.memory.read a = 0) ∧ (∀ x : RegIdx, t.readV x = 0) ∧
      (∀ k : Fin 16, t.stack[k] = 0) ∧ t.delayTimer = 0 ∧ t.soundTimer = 0 ∧ (∀ k : Fin 16, t.key k = false) ∧
      t.currentOpcode = 0 ∧ t.drawFlag = false ∧ t.halted = none

/-- 70_reset_and_hazards.md R243: an image of at most 3584 bytes is copied to 0x200 and up and nothing else changes; a longer
one fails. -/
def Obligations.LoaderCopiesTheImageAt0x200 : Prop :=
  ∀ (s : State) (rom : List Byte),
    (rom.length ≤ 3584 → ∃ t, load rom s = .ok t ∧
      SameBut (fun p => ∃ k, k < rom.length ∧ p = .mem (0x200 + k)) s t ∧
      ∀ k (h : k < rom.length), t.memory.read (0x200 + k) = rom[k]) ∧
    (3584 < rom.length → load rom s = .error .memoryExhausted)

/-- 10_state.md R40 and R41, 60_exceptions.md R224: each move of an external agent changes one piece of state; a timer goes
down by one and never below zero; consuming draw_flag returns it and leaves it 0. -/
def Obligations.AgentMovesChangeOnePieceEach : Prop :=
  ∀ s : State,
    (∀ (k : Fin 16) (down : Bool), ((Move.key k down).apply s).key k = down ∧
      SameBut (· = .key k) s ((Move.key k down).apply s)) ∧
    ((Move.tickDelay.apply s).delayTimer.toNat = s.delayTimer.toNat - 1 ∧
      SameBut (· = .delayTimer) s (Move.tickDelay.apply s)) ∧
    ((Move.tickSound.apply s).soundTimer.toNat = s.soundTimer.toNat - 1 ∧
      SameBut (· = .soundTimer) s (Move.tickSound.apply s)) ∧
    (s.consumeDrawFlag.1 = s.drawFlag ∧ s.consumeDrawFlag.2 = Move.consumeDrawFlag.apply s ∧
      (Move.consumeDrawFlag.apply s).drawFlag = false ∧ SameBut (· = .drawFlag) s (Move.consumeDrawFlag.apply s))

/-! ### Invariants -/

/-- The invariant holds after `reset()`, at the named reset state and for every FONT and every pixel contents. The named
pixel contents are the model's choice (log 1) and no clause rests on them. -/
def Obligations.ResetSatisfiesTheInvariant : Prop :=
  State.reset.Inv ∧ ∀ (s : State) (font : Vector Byte 80) (px : Surface), (s.resetAgain font px).Inv

/-- 10_state.md R25, R27, R28, R42: from every state that satisfies the invariant a step gives one that does: memory keeps its
canonical form, PC stays at most 0x10FE, every stack entry in use is the address of a call that was fetched, and the latch
agrees with the result. -/
def Obligations.EveryStepKeepsTheInvariant : Prop :=
  ∀ s t : State, s.Inv → step s = .next t → t.Inv

/-- Every state of every run with its external agents satisfies the invariant (40_step_cycle.md R127). The canonical form of
memory is the model's own (log 3), and so are the form of the agents' moves and where they come (log 12). -/
def Obligations.EveryReachableStateSatisfiesTheInvariant : Prop :=
  ∀ (font : Vector Byte 80) (s : State), Reachable font s → s.Inv

/-! ### Encoding and decoding -/

/-- 30_encoding.md R91, R102: decoding the canonical word of a well-formed instruction gives it back, with every operand at
every value. -/
def Obligations.DecodeOfEncodeIsTheInstruction : Prop :=
  ∀ i : Instr, i.WellFormed = true → decode (encode i) = .ok i

/-- 30_encoding.md R96, R98, R99: a word decodes to a well-formed instruction whose row it matches and whose canonical word it
is but for the bits its row ignores. -/
def Obligations.DecodedWordIsItsCanonicalWordButForIgnoredBits : Prop :=
  ∀ (op : Word) (i : Instr), decode op = .ok i →
    i.WellFormed = true ∧ op &&& (opcodeRow i).mask = (opcodeRow i).pattern ∧
      op &&& ~~~(opcodeRow i).ignored = encode i &&& ~~~(opcodeRow i).ignored

/-- 30_encoding.md R96, R106: a word selects the row whose `(op & mask) == match`, so at most one row matches it, and a word
that matches no row is rejected. That alias words match their row (R98, R99, decisions D5 and D6, log 9) and that a selector of
no row is rejected (R97, decision D4, log 16) is the spec's own reading. -/
def Obligations.WordSelectsTheRowItMatches : Prop :=
  ∀ op : Word,
    (∀ i : Instr, op &&& (opcodeRow i).mask = (opcodeRow i).pattern →
      ∃ j, decode op = .ok j ∧ opcodeRow j = opcodeRow i) ∧
    ((∀ i : Instr, op &&& (opcodeRow i).mask ≠ (opcodeRow i).pattern) → ∃ e, decode op = .error e)

/-- 30_encoding.md R100: the words that are no instruction are exactly the four classes of the table (decisions D4 and D20,
log 16). -/
def Obligations.UnknownOpcodesAreTheFourClasses : Prop :=
  ∀ op : Word,
    (∃ e, decode op = .error e) ↔
      (op.toNat / 0x1000 = 0x0 ∧ op.toNat ∉ [0x00E0, 0x00F0, 0x00EE, 0x00EF, 0x00FE, 0x00FF]) ∨
      (op.toNat / 0x1000 = 0xE ∧ op.toNat % 0x100 ∉ [0x9E, 0xA1]) ∨
      (op.toNat / 0x1000 = 0x8 ∧ op.toNat % 0x10 ∈ [0x8, 0x9, 0xA, 0xB, 0xC, 0xD, 0xF]) ∨
      (op.toNat / 0x1000 = 0xF ∧ op.toNat % 0x100 ∉ [0x07, 0x0A, 0x15, 0x18, 0x1E, 0x29, 0x33, 0x55, 0x65])

/-- 30_encoding.md R98 and the table of R99: the alias words decode as the instruction of their key, which is the spec's own
reading (decisions D5 and D6, log 9). -/
def Obligations.AliasWordsDecodeAsTheirInstruction : Prop :=
  (∀ op ∈ [0x00EE#16, 0x00EF#16, 0x00FE#16, 0x00FF#16], decode op = .ok .ret) ∧
  (∀ op ∈ [0x00E0#16, 0x00F0#16], decode op = .ok .cls) ∧
  (∀ (x y : RegIdx) (n : Nat), n < 16 →
    decode (BitVec.ofNat 16 (0x5000 + 0x100 * x.val + 0x10 * y.val + n)) = .ok (.ser x y)) ∧
  (∀ (x y : RegIdx) (n : Nat), n < 16 →
    decode (BitVec.ofNat 16 (0x9000 + 0x100 * x.val + 0x10 * y.val + n)) = .ok (.sner x y))

/-- 30_encoding.md R102 and the vectors of 95_test_vectors.md 2.1: words written out from the encoding, one or more per
family. -/
def Obligations.SampleWordsDecode : Prop :=
  decode 0x8374 = .ok (.add 3 7) ∧ decode 0x22F0 = .ok (.call 0x2F0) ∧ decode 0xDAB5 = .ok (.drw 10 11 5) ∧
    decode 0xFF65 = .ok (.ldm 15) ∧ decode 0xE2A1 = .ok (.sknp 2) ∧ decode 0x6A05 = .ok (.ldi 10 0x05) ∧
    decode 0xB000 = .ok (.jpv0 0) ∧ decode 0xF10A = .ok (.ldk 1)

/-! ### The step -/

/-- 40_step_cycle.md R120, R121, R122: where the two bytes at PC are in memory and their word, high byte first, is an
instruction, the step is that instruction's meaning at the state with current_opcode written. -/
def Obligations.StepRunsTheDecodedInstruction : Prop :=
  ∀ (s : State) (op : Word) (i : Instr), s.halted = none → s.pc.toNat ≤ 0x0FFE →
    op.toNat = 256 * (s.memory.read s.pc.toNat).toNat + (s.memory.read (s.pc.toNat + 1)).toNat → decode op = .ok i →
    step s = exec i { s with currentOpcode := op }

/-- 40_step_cycle.md R123, 60_exceptions.md R211: a fetched word that is no instruction ends the step in
UnknownOpcode(op), with nothing changed but current_opcode and the latch (and the model's result, log 5). -/
def Obligations.StepOnAnUnknownWordRaisesUnknownOpcode : Prop :=
  ∀ (s : State) (op : Word) (e : DecodeError), s.halted = none → s.pc.toNat ≤ 0x0FFE →
    op.toNat = 256 * (s.memory.read s.pc.toNat).toNat + (s.memory.read (s.pc.toNat + 1)).toNat → decode op = .error e →
    step s = .next { s with
      currentOpcode := op
      halted := some (.unknownOpcode op)
      result := some (.err (.unknownOpcode op)) }

/-- 40_step_cycle.md R121, 60_exceptions.md R212: a PC above 0x0FFE ends the step in OutOfBoundsFetch(PC), with nothing
changed but the latch (and the model's result, log 5). -/
def Obligations.StepOutsideMemoryRaisesOutOfBoundsFetch : Prop :=
  ∀ s : State, s.halted = none → 0x0FFE < s.pc.toNat →
    step s = .next { s with
      halted := some (.outOfBoundsFetch s.pc)
      result := some (.err (.outOfBoundsFetch s.pc)) }

/-- 10_state.md R42, 60_exceptions.md R218: a halted core takes no step. That the model answers a fault there is its own
form of "not defined" (log 4). -/
def Obligations.HaltedCoreTakesNoStep : Prop :=
  ∀ (s : State) (e : Error), s.halted = some e → step s = .fault (.stepWhileHalted e)

/-- 40_step_cycle.md R126: a step of a core that is not halted ends, in one of three results: Ok; Pending, for an FX0A with
no key pressed, with nothing changed but current_opcode; or Err(e), with the latch holding `e`. -/
def Obligations.EveryStepHasOneOfThreeResults : Prop :=
  ∀ s : State, s.halted = none → ∃ t, step s = .next t ∧
    ((t.result = some .ok ∧ t.halted = none) ∨
      (t.result = some .pending ∧ t.halted = none ∧ (∃ x, decode s.fetchWord = .ok (.ldk x)) ∧
        (∀ k : Fin 16, s.key k = false) ∧ SameBut (fun p => p = .currentOpcode ∨ p = .result) s t) ∨
      ∃ e, t.result = some (.err e) ∧ t.halted = some e ∧ t.pc = s.pc)

/-- 40_step_cycle.md R128: a jump to itself is a fixed point of `step()` but for current_opcode (and the model's
result, log 5). What a parked state is follows decision D19 (log 20). -/
def Obligations.ParkedStateIsAFixedPoint : Prop :=
  ∀ s : State, s.halted = none → s.parked →
    step s = .next { s with currentOpcode := s.fetchWord, result := some .ok }

/-! ### Control transfer and skips -/

/-- 41_control_flow.md R141, R143: the jumps write PC and nothing else; the sum of BNNN is not reduced to 12 bits. -/
def Obligations.JumpsWritePcOnly : Prop :=
  ∀ (s : State) (nnn : Addr12),
    Completes (.jp nnn) s (fun _ => False) (fun t => t.pc.toNat = nnn.toNat) ∧
    Completes (.jpv0 nnn) s (fun _ => False) (fun t => t.pc.toNat = (s.readV 0).toNat + nnn.toNat)

/-- 41_control_flow.md R142: a call pushes its own address and jumps; with the stack full it ends in OutOfBoundsAccess(16)
and changes nothing else, which is the spec's own reading (decision D8, log 14). -/
def Obligations.CallPushesItsAddressAndJumps : Prop :=
  ∀ (s : State) (nnn : Addr12),
    (∀ k : Fin 16, k.val = s.sp.val →
      Completes (.call nnn) s (fun p => p = .sp ∨ p = .stack k)
        (fun t => t.stack[k] = s.pc ∧ t.sp.val = s.sp.val + 1 ∧ t.pc.toNat = nnn.toNat)) ∧
    (s.sp.val = 16 → Raises (.call nnn) s (.outOfBoundsAccess 16) (fun _ => False))

/-- 41_control_flow.md R140: a return pops the stack and goes to the popped address plus 2, erasing nothing; with the stack
empty it ends in OutOfBoundsAccess(0) and changes nothing else, which is the spec's own reading (decision D8, log 14). -/
def Obligations.ReturnGoesBehindTheCall : Prop :=
  ∀ s : State,
    (∀ k : Fin 16, k.val + 1 = s.sp.val →
      Completes .ret s (· = .sp) (fun t => t.sp.val = k.val ∧ t.pc = s.stack[k] + 2)) ∧
    (s.sp.val = 0 → Raises .ret s (.outOfBoundsAccess 0) (fun _ => False))

/-- 95_test_vectors.md S3: a call and a return after it leave SP as it was and PC at the call site plus 2. -/
def Obligations.CallThenReturnComesBack : Prop :=
  ∀ (s : State) (nnn : Addr12), s.sp.val < 16 →
    ∃ t u, exec (.call nnn) s = .next t ∧ exec .ret t = .next u ∧ u.sp = s.sp ∧ u.pc = s.pc + 2 ∧
      SameBut (fun p => p = .pc ∨ p = .result ∨ ∃ k : Fin 16, k.val = s.sp.val ∧ p = .stack k) s u

/-- 42_skips.md R150, R151, R152, R153, R156: the register skips write PC and nothing else. -/
def Obligations.RegisterSkipsTestTheirCondition : Prop :=
  ∀ (s : State) (x y : RegIdx) (nn : Byte),
    let skip (i : Instr) (c : Prop) : Prop :=
      (c → Completes i s (fun _ => False) (fun t => t.pc = s.pc + 4)) ∧
        (¬ c → Completes i s (fun _ => False) (fun t => t.pc = s.pc + 2))
    skip (.sei x nn) (s.readV x = nn) ∧ skip (.snei x nn) (s.readV x ≠ nn) ∧
      skip (.ser x y) (s.readV x = s.readV y) ∧ skip (.sner x y) (s.readV x ≠ s.readV y)

/-- 42_skips.md R154, R155: the key skips test the flag of key V[X]; a number above 15 ends in OutOfBoundsAccess(V[X]) and
changes nothing else, which is the spec's own reading (decision D9, log 14). -/
def Obligations.KeySkipsTestTheKeyThatVxNames : Prop :=
  ∀ (s : State) (x : RegIdx),
    (∀ k : Fin 16, (s.readV x).toNat = k.val →
      Completes (.skp x) s (fun _ => False) (fun t => t.pc = if s.key k = true then s.pc + 4 else s.pc + 2) ∧
      Completes (.sknp x) s (fun _ => False) (fun t => t.pc = if s.key k = false then s.pc + 4 else s.pc + 2)) ∧
    (15 < (s.readV x).toNat →
      Raises (.skp x) s (.outOfBoundsAccess (s.readV x).toNat) (fun _ => False) ∧
      Raises (.sknp x) s (.outOfBoundsAccess (s.readV x).toNat) (fun _ => False))

/-! ### Load, ALU and random -/

/-- 43_load_and_alu.md R160 to R165: the instructions that write V[X] and no flag. -/
def Obligations.LoadAndLogicWriteVxOnly : Prop :=
  ∀ (s : State) (x y : RegIdx) (nn : Byte),
    let sets (i : Instr) (value : Byte → Prop) : Prop :=
      Completes i s (· = .v x) (fun t => value (t.readV x) ∧ t.pc = s.pc + 2)
    let bitwise (f : Bool → Bool → Bool) (r : Byte) : Prop :=
      ∀ j, j < 8 → r.getLsbD j = f ((s.readV x).getLsbD j) ((s.readV y).getLsbD j)
    sets (.ldi x nn) (· = nn) ∧
      sets (.addi x nn) (fun r => r.toNat = ((s.readV x).toNat + nn.toNat) % 256) ∧
      sets (.mov x y) (· = s.readV y) ∧
      sets (.or x y) (bitwise or) ∧ sets (.and x y) (bitwise and) ∧ sets (.xor x y) (bitwise xor)

/-- 43_load_and_alu.md R166. With VF as X or Y the order counts, VF first and the sum of the registers as they then stand: the
spec's own reading (R175, decision D7, log 10). -/
def Obligations.AddSetsVfOnCarryThenAdds : Prop :=
  ∀ (s : State) (x y : RegIdx),
    let c := if (s.readV x).toNat + (s.readV y).toNat > 255 then 1 else 0
    let v1 (r : RegIdx) : Nat := if r = 15 then c else (s.readV r).toNat
    Completes (.add x y) s (fun p => p = .v x ∨ p = .v 15) (fun t =>
      (t.readV x).toNat = (v1 x + v1 y) % 256 ∧ (x ≠ 15 → (t.readV 15).toNat = c) ∧ t.pc = s.pc + 2)

/-- 43_load_and_alu.md R167, R171: VF is 1 when the minuend is strictly greater, so 0 for equal operands. With VF as X or Y the
order counts, as the spec itself reads it (R175, decision D7, log 10). -/
def Obligations.SubtractSetsVfWhenGreaterThenSubtracts : Prop :=
  ∀ (s : State) (x y : RegIdx),
    let subtracts (i : Instr) (a b : RegIdx) : Prop :=
      let c := if (s.readV a).toNat > (s.readV b).toNat then 1 else 0
      let v1 (r : RegIdx) : Nat := if r = 15 then c else (s.readV r).toNat
      Completes i s (fun p => p = .v x ∨ p = .v 15) (fun t =>
        (t.readV x).toNat = (256 + v1 a - v1 b) % 256 ∧ (x ≠ 15 → (t.readV 15).toNat = c) ∧ t.pc = s.pc + 2)
    subtracts (.sub x y) x y ∧ subtracts (.subn x y) y x

/-- 43_load_and_alu.md R170, R172: V[X] is shifted in place and V[Y] is neither read nor written. With VF as X the order
counts, as the spec itself reads it (R175, decision D7, log 10). -/
def Obligations.ShiftsMoveTheLostBitToVf : Prop :=
  ∀ (s : State) (x y : RegIdx),
    let shifts (i : Instr) (bit : Nat) (f : Nat → Nat) : Prop :=
      Completes i s (fun p => p = .v x ∨ p = .v 15) (fun t =>
        (t.readV x).toNat = f (if x = 15 then bit else (s.readV x).toNat) ∧ (x ≠ 15 → (t.readV 15).toNat = bit) ∧
          t.pc = s.pc + 2)
    shifts (.shr x y) ((s.readV x).toNat % 2) (fun a => a / 2) ∧
      shifts (.shl x y) ((s.readV x).toNat / 128) (fun a => 2 * a % 256)

/-- 43_load_and_alu.md R175: the table of the VF-aliased forms, row by row. The whole table is the spec's own reading
(decision D7, log 10). -/
def Obligations.VfAliasedFormsFollowTheTable : Prop :=
  ∀ (s : State) (x y : RegIdx), x ≠ 15 → y ≠ 15 →
    let f := (s.readV 15).toNat
    let vx := (s.readV x).toNat
    let vy := (s.readV y).toNat
    let flag (p : Prop) [Decidable p] : Nat := if p then 1 else 0
    let leaves (i : Instr) (post : State → Prop) : Prop := ∃ t, exec i s = .next t ∧ post t
    leaves (.add 15 y) (fun t => (t.readV 15).toNat = (flag (f + vy > 255) + vy) % 256) ∧
    leaves (.add x 15) (fun t => (t.readV 15).toNat = flag (vx + f > 255) ∧
      (t.readV x).toNat = (vx + flag (vx + f > 255)) % 256) ∧
    leaves (.add 15 15) (fun t => (t.readV 15).toNat = 2 * flag (2 * f > 255)) ∧
    leaves (.sub 15 y) (fun t => (t.readV 15).toNat = (256 + flag (f > vy) - vy) % 256) ∧
    leaves (.sub x 15) (fun t => (t.readV 15).toNat = flag (vx > f) ∧
      (t.readV x).toNat = (256 + vx - flag (vx > f)) % 256) ∧
    leaves (.sub 15 15) (fun t => (t.readV 15).toNat = 0) ∧
    leaves (.subn 15 y) (fun t => (t.readV 15).toNat = (256 + vy - flag (vy > f)) % 256) ∧
    leaves (.subn x 15) (fun t => (t.readV 15).toNat = flag (f > vx) ∧
      (t.readV x).toNat = (256 + flag (f > vx) - vx) % 256) ∧
    leaves (.subn 15 15) (fun t => (t.readV 15).toNat = 0) ∧
    leaves (.shr 15 y) (fun t => (t.readV 15).toNat = 0) ∧
    leaves (.shl 15 y) (fun t => (t.readV 15).toNat = 2 * (f / 128))

/-- 43_load_and_alu.md R173: one byte is taken from the random source, whatever it is, and masked. That it is a free value
drawn by number, also when NN = 0, is the model's form of decision D26 (log 6). -/
def Obligations.RandomMasksOneByteOfTheSource : Prop :=
  ∀ (s : State) (x : RegIdx) (nn : Byte),
    Completes (.rnd x nn) s (fun p => p = .v x ∨ p = .rndCalls) (fun t =>
      t.readV x = Config.randomByte s.rndCalls &&& nn ∧ t.readV x &&& ~~~nn = 0 ∧ t.rndCalls = s.rndCalls + 1 ∧
        t.pc = s.pc + 2)

/-- 10_state.md R22: the six instructions that write VF as a side effect leave 0 or 1 in it unless X is 15 or the draw faults,
and no other instruction writes VF unless its X field is 15. -/
def Obligations.OnlyTheSixFlagWritersTouchVf : Prop :=
  (∀ (s t : State) (x y : RegIdx) (i : Instr), i ∈ [Instr.add x y, .sub x y, .shr x y, .subn x y, .shl x y] → x ≠ 15 →
    exec i s = .next t → t.readV 15 = 0 ∨ t.readV 15 = 1) ∧
  (∀ (s t : State) (x y : RegIdx) (n : Nat), exec (.drw x y n) s = .next t → t.result = some .ok →
    t.readV 15 = 0 ∨ t.readV 15 = 1) ∧
  (∀ (s t : State) (i : Instr), exec i s = .next t → t.readV 15 ≠ s.readV 15 →
    (∃ x y n, i ∈ [Instr.add x y, .sub x y, .shr x y, .subn x y, .shl x y, .drw x y n]) ∨
      ∃ y nn, i ∈ [Instr.ldi 15 nn, .addi 15 nn, .mov 15 y, .or 15 y, .and 15 y, .xor 15 y, .rnd 15 nn, .lddt 15,
        .ldk 15, .ldm 15])

/-! ### The address register and memory -/

/-- 44_index_and_memory.md R180, R182: the immediate and the glyph address go to I, and nothing but I and PC changes. -/
def Obligations.ImmediateAndGlyphAddressGoToI : Prop :=
  ∀ (s : State) (x : RegIdx) (nnn : Addr12),
    Completes (.lda nnn) s (· = .i) (fun t => t.i.toNat = nnn.toNat ∧ t.pc = s.pc + 2) ∧
    Completes (.ldf x) s (· = .i) (fun t => t.i.toNat = 5 * (s.readV x).toNat ∧ t.pc = s.pc + 2)

/-- 44_index_and_memory.md R181: the sum goes to I and no flag changes. That it wraps at 16 bits and not at 12 is the spec's own
reading (decision D10, log 15). -/
def Obligations.AddToAddressWrapsAt16Bits : Prop :=
  ∀ (s : State) (x : RegIdx),
    Completes (.adda x) s (· = .i) (fun t =>
      t.i.toNat = (s.i.toNat + (s.readV x).toNat) % 65536 ∧ t.pc = s.pc + 2)

/-- 44_index_and_memory.md R183: the digits go to I, I + 1 and I + 2; the first of the three addresses above 0xFFF ends the
instruction in OutOfBoundsAccess. If that is I itself nothing is written, else those of the three bytes that are in range are
not known to be as before (60_exceptions.md R216, decision D16, log 8). That the address is not wrapped is the spec's own reading
(decision D11, log 15). -/
def Obligations.BcdStoresTheThreeDigits : Prop :=
  ∀ (s : State) (x : RegIdx),
    let v := (s.readV x).toNat
    (s.i.toNat + 2 ≤ 0xFFF →
      Completes (.bcd x) s (fun p => ∃ k, k < 3 ∧ p = .mem (s.i.toNat + k)) (fun t =>
        (t.memory.read s.i.toNat).toNat = v / 100 ∧ (t.memory.read (s.i.toNat + 1)).toNat = v / 10 % 10 ∧
          (t.memory.read (s.i.toNat + 2)).toNat = v % 10 ∧ t.pc = s.pc + 2)) ∧
    (0xFFF < s.i.toNat + 2 →
      Raises (.bcd x) s (.outOfBoundsAccess (max s.i.toNat 0x1000)) (fun p => s.i.toNat ≤ 0xFFF ∧
        (p = .freeDraws ∨ ∃ k, k < 3 ∧ s.i.toNat + k ≤ 0xFFF ∧ p = .mem (s.i.toNat + k))))

/-- 44_index_and_memory.md R184: V[0] to V[X] go to I to I + X, and I is unchanged; with the same ending as FX33 for an
address out of range (60_exceptions.md R216, decisions D11 and D16, logs 8 and 15). -/
def Obligations.StoreRegistersStoresV0ToVx : Prop :=
  ∀ (s : State) (x : RegIdx),
    (s.i.toNat + x.val ≤ 0xFFF →
      Completes (.stm x) s (fun p => ∃ k, k ≤ x.val ∧ p = .mem (s.i.toNat + k)) (fun t =>
        (∀ r : RegIdx, r ≤ x → t.memory.read (s.i.toNat + r.val) = s.readV r) ∧ t.pc = s.pc + 2)) ∧
    (0xFFF < s.i.toNat + x.val →
      Raises (.stm x) s (.outOfBoundsAccess (max s.i.toNat 0x1000)) (fun p => s.i.toNat ≤ 0xFFF ∧
        (p = .freeDraws ∨ ∃ k, k ≤ x.val ∧ s.i.toNat + k ≤ 0xFFF ∧ p = .mem (s.i.toNat + k))))

/-- 44_index_and_memory.md R185: I to I + X go to V[0] to V[X], and I and memory are unchanged; an address out of range ends
the instruction in OutOfBoundsAccess of the first such address. If that is I itself no register is loaded, else V[0] to V[X]
are not known to be as before (60_exceptions.md R216, decisions D11 and D16, logs 8 and 15). -/
def Obligations.LoadRegistersLoadsV0ToVx : Prop :=
  ∀ (s : State) (x : RegIdx),
    (s.i.toNat + x.val ≤ 0xFFF →
      Completes (.ldm x) s (fun p => ∃ r : RegIdx, r ≤ x ∧ p = .v r) (fun t =>
        (∀ r : RegIdx, r ≤ x → t.readV r = s.memory.read (s.i.toNat + r.val)) ∧ t.pc = s.pc + 2)) ∧
    (0xFFF < s.i.toNat + x.val →
      Raises (.ldm x) s (.outOfBoundsAccess (max s.i.toNat 0x1000)) (fun p => s.i.toNat ≤ 0xFFF ∧
        (p = .freeDraws ∨ ∃ r : RegIdx, r ≤ x ∧ p = .v r)))

/-- 95_test_vectors.md S7: registers stored by FX55 and loaded by FX65 from the same I, whatever the registers hold in
between, come back. -/
def Obligations.StoreThenLoadReproducesTheRegisters : Prop :=
  ∀ (s : State) (x : RegIdx), s.i.toNat + x.val ≤ 0xFFF →
    ∃ t, exec (.stm x) s = .next t ∧ ∀ u : State, u.memory = t.memory → u.i = t.i →
      ∃ w, exec (.ldm x) u = .next w ∧ ∀ r : RegIdx, (r ≤ x → w.readV r = s.readV r) ∧ (x < r → w.readV r = u.readV r)

/-- 20_memory.md R72: a store to the next instruction's bytes is seen by the very next fetch. -/
def Obligations.StoreIsSeenByTheNextFetch : Prop :=
  ∀ (s : State) (x : RegIdx), s.i = s.pc + 2 → 1 ≤ x.val → s.i.toNat + x.val ≤ 0xFFF →
    ∃ t, exec (.stm x) s = .next t ∧ t.pc = s.i ∧
      t.fetchWord.toNat = 256 * (s.readV 0).toNat + (s.readV 1).toNat

/-! ### Display -/

/-- 45_display.md R190: every pixel cell 0, draw_flag 1, VF untouched. -/
def Obligations.ClearZeroesEveryPixel : Prop :=
  ∀ s : State, Completes .cls s (fun p => p = .drawFlag ∨ ∃ k, p = .pixel k) (fun t =>
    (∀ k, k < 2048 → pxGet t.px k = false) ∧ t.drawFlag = true ∧ t.pc = s.pc + 2)

/-- 45_display.md R191, R193, R194: each cell that the sprite lights flips and no other changes; VF is 1 exactly when some
cell that was set was cleared; draw_flag is 1. Where a sprite bit lands (decision D12, log 11) and that the coordinates are
V[X] and V[Y] as they are before VF is written (decision D13, log 10) is the spec's own reading. -/
def Obligations.DrawXorsTheSpriteAndReportsCollision : Prop :=
  ∀ (s : State) (x y : RegIdx) (n : Nat), n < 16 → (n = 0 ∨ s.i.toNat + n ≤ 0x1000) →
    Completes (.drw x y n) s
      (fun p => p = .v 15 ∨ p = .drawFlag ∨ ∃ k, spriteLights s x y n k ∧ p = .pixel k)
      (fun t =>
        (∀ k, spriteLights s x y n k → pxGet t.px k = !pxGet s.px k) ∧
          ((∃ k, spriteLights s x y n k ∧ pxGet s.px k = true) → t.readV 15 = 1) ∧
          (¬ (∃ k, spriteLights s x y n k ∧ pxGet s.px k = true) → t.readV 15 = 0) ∧
          t.drawFlag = true ∧ t.pc = s.pc + 2)

/-- 45_display.md R191, 60_exceptions.md R216: a sprite row above 0xFFF ends the draw in OutOfBoundsAccess of the first such
address, after which VF is not known to be as before, nor, unless it was the very first row, draw_flag and the cells the sprite
covers. The free values are the spec's own reading (decision D16, log 8), and so are the cells (decision D12, log 11) and that
the address is not wrapped (decision D11, log 15). -/
def Obligations.DrawOutOfRangeRaises : Prop :=
  ∀ (s : State) (x y : RegIdx) (n : Nat), 0 < n → 0x1000 < s.i.toNat + n →
    Raises (.drw x y n) s (.outOfBoundsAccess (max s.i.toNat 0x1000)) (fun p =>
      p = .freeDraws ∨ p = .v 15 ∨ (s.i.toNat ≤ 0xFFF ∧ (p = .drawFlag ∨
        ∃ row col, row < n ∧ col < 8 ∧ p = .pixel (pixelIndex (s.readV x) (s.readV y) row col))))

/-- 45_display.md R192: where a sprite pixel lands, as a column and a row, and that no two of one sprite share a cell: the
spec's own reading of "wrapping" (decision D12, log 11). -/
def Obligations.PixelIndexWrapsTheLinearIndex : Prop :=
  ∀ (x y : Byte) (row col : Nat), row < 15 → col < 8 →
    (let c := x.toNat + col
     let r := y.toNat + row
     pixelIndex x y row col = c % 64 + 64 * ((r + c / 64) % 32)) ∧
    ∀ row' col', row' < 15 → col' < 8 → pixelIndex x y row col = pixelIndex x y row' col' → row = row' ∧ col = col'

/-- 45_display.md R194, 95_test_vectors.md S8: a second draw of the same sprite at the same place restores every cell, and
reports a collision exactly when the first draw set a cell. -/
def Obligations.DrawingTwiceRestoresTheSurface : Prop :=
  ∀ (s : State) (x y : RegIdx) (n : Nat), n < 16 → (n = 0 ∨ s.i.toNat + n ≤ 0x1000) →
    ∃ t, exec (.drw x y n) s = .next t ∧
      (t.readV x = s.readV x → t.readV y = s.readV y →
        ∃ w, exec (.drw x y n) t = .next w ∧ (∀ k, pxGet w.px k = pxGet s.px k) ∧
          (w.readV 15 = 1 ↔ ∃ k, pxGet s.px k = false ∧ pxGet t.px k = true))

/-! ### Timers and the key wait -/

/-- 46_timers_and_keys.md R200, R202, R203: the three moves between a register and a timer. -/
def Obligations.TimerInstructionsMoveTheValue : Prop :=
  ∀ (s : State) (x : RegIdx),
    Completes (.lddt x) s (· = .v x) (fun t => t.readV x = s.delayTimer ∧ t.pc = s.pc + 2) ∧
    Completes (.stdt x) s (· = .delayTimer) (fun t => t.delayTimer = s.readV x ∧ t.pc = s.pc + 2) ∧
    Completes (.stst x) s (· = .soundTimer) (fun t => t.soundTimer = s.readV x ∧ t.pc = s.pc + 2)

/-- 46_timers_and_keys.md R201: with no key pressed the step is Pending and nothing is written; with a key pressed, the number
of some pressed key is stored, whichever it is, and the instruction completes. That the test is of the level is the spec's own
reading (decision D15, log 7). -/
def Obligations.KeyWaitPendsOrStoresAPressedKey : Prop :=
  ∀ (s : State) (x : RegIdx),
    ((∀ k : Fin 16, s.key k = false) →
      ∃ t, exec (.ldk x) s = .next t ∧ t.result = some .pending ∧ SameBut (· = .result) s t) ∧
    ((∃ k : Fin 16, s.key k = true) →
      ∃ k : Fin 16, s.key k = true ∧
        Completes (.ldk x) s (fun p => p = .v x ∨ p = .freeDraws) (fun t =>
          (t.readV x).toNat = k.val ∧ t.pc = s.pc + 2))

/-! ### Rules about every instruction -/

/-- 10_state.md R44, the columns written: whatever an instruction does, a fault included, it changes only PC, the result and
the pieces of its row of the access matrix. What a fault may leave (decision D16, log 8) and which cells a sprite covers (decision
D12, log 11) is the spec's own reading. -/
def Obligations.EveryInstructionWritesOnlyItsMatrixRow : Prop :=
  ∀ (i : Instr) (s t : State), exec i s = .next t → SameBut (mayWrite i s) s t

/-- 60_exceptions.md R213, R215, R229: an instruction ends in an error exactly where the two tables say, with that info, and
runs to its end or waits everywhere else. -/
def Obligations.InstructionRaisesExactlyWhatTheTableSays : Prop :=
  ∀ (i : Instr) (s : State), ∃ t, exec i s = .next t ∧
    match raisedBy i s with
    | some e => t.result = some (.err e) ∧ t.halted = some e
    | none => (t.result = some .ok ∨ (t.result = some .pending ∧ ∃ x, i = .ldk x)) ∧ t.halted = s.halted

/-- 60_exceptions.md R216: an instruction that ends in an error leaves PC where it was, changes nothing outside its row of the
access matrix, and changes nothing at all where the error is raised by the first statement of the handler or by the first
access of FX33, FX55 or FX65; a first access of DXYN that fails leaves draw_flag and every cell. What a fault may leave is the
spec's own reading (decision D16, log 8), and so are the cells a sprite covers (decision D12, log 11). -/
def Obligations.FaultKeepsPcAndWhatTheInstructionDoesNotWrite : Prop :=
  ∀ (i : Instr) (s t : State) (e : Error), exec i s = .next t → t.result = some (.err e) →
    t.pc = s.pc ∧ SameBut (fun p => p ≠ .pc ∧ mayWrite i s p) s t ∧
      ((∃ x nnn, i ∈ [Instr.ret, .call nnn, .skp x, .sknp x]) → SameBut (fun p => p = .halted ∨ p = .result) s t) ∧
      (0xFFF < s.i.toNat → (∃ x, i ∈ [Instr.bcd x, .stm x, .ldm x]) → SameBut (fun p => p = .halted ∨ p = .result) s t) ∧
      (0xFFF < s.i.toNat → (∃ x y n, i = .drw x y n) →
        SameBut (fun p => p = .halted ∨ p = .result ∨ p = .freeDraws ∨ p = .v 15) s t)

/-- 40_step_cycle.md R125: every instruction that is not a jump, call, return, skip or pending key wait, where it runs to its
end, leaves PC at its own address plus 2. That a key held from before completes FX0A is the spec's own reading (decision D15,
log 7). -/
def Obligations.DefaultAdvanceIsPlusTwo : Prop :=
  ∀ (i : Instr) (s : State),
    (defaultAdvance i = true ∧ raisedBy i s = none) ∨ (∃ x, i = .ldk x ∧ ∃ k : Fin 16, s.key k = true) →
    ∃ t, exec i s = .next t ∧ t.result = some .ok ∧ t.pc = s.pc + 2

/-- 10_state.md R29, R32, R33: no instruction reads current_opcode, the sound timer or draw_flag: with another value in one of
them, every instruction does the same to everything else. -/
def Obligations.NoInstructionReadsTheHostsOutputs : Prop :=
  ∀ (i : Instr) (s : State), ∃ t, exec i s = .next t ∧
    (∀ op : Word, exec i { s with currentOpcode := op } = .next { t with currentOpcode := op }) ∧
    (∀ b : Byte, ∃ u, exec i { s with soundTimer := b } = .next u ∧
      { u with soundTimer := t.soundTimer } = t ∧ (u.soundTimer = t.soundTimer ∨ u.soundTimer = b)) ∧
    (∀ d : Bool, ∃ u, exec i { s with drawFlag := d } = .next u ∧
      { u with drawFlag := t.drawFlag } = t ∧ (u.drawFlag = t.drawFlag ∨ u.drawFlag = d))

/-- 10_state.md R34, R39: only EX9E, EXA1 and FX0A read the keypad, and no instruction writes it. -/
def Obligations.OnlyTheKeyInstructionsReadTheKeypad : Prop :=
  ∀ (i : Instr) (s : State), ∃ t, exec i s = .next t ∧ t.keypad = s.keypad ∧
    ((∀ x, i ∉ [Instr.skp x, .sknp x, .ldk x]) →
      ∀ keys : Vector Bool 16, exec i { s with keypad := keys } = .next { t with keypad := keys })
end

