-- ==== Sys2Proof/Laws/State.lean ====
section
/-! SUPPORT. What each named update leaves of each field of the state: one lemma per field per update. -/

namespace Sys2Proof.Machine

/-! ### writeV -/

@[simp] theorem State.writeV_v (s : State) (x : RegIdx) (b : Byte) : (s.writeV x b).v = s.v.set x b := rfl
@[simp] theorem State.writeV_pc (s : State) (x : RegIdx) (b : Byte) : (s.writeV x b).pc = s.pc := rfl
@[simp] theorem State.writeV_i (s : State) (x : RegIdx) (b : Byte) : (s.writeV x b).i = s.i := rfl
@[simp] theorem State.writeV_stack (s : State) (x : RegIdx) (b : Byte) : (s.writeV x b).stack = s.stack := rfl
@[simp] theorem State.writeV_sp (s : State) (x : RegIdx) (b : Byte) : (s.writeV x b).sp = s.sp := rfl
@[simp] theorem State.writeV_delayTimer (s : State) (x : RegIdx) (b : Byte) : (s.writeV x b).delayTimer = s.delayTimer := rfl
@[simp] theorem State.writeV_soundTimer (s : State) (x : RegIdx) (b : Byte) : (s.writeV x b).soundTimer = s.soundTimer := rfl
@[simp] theorem State.writeV_memory (s : State) (x : RegIdx) (b : Byte) : (s.writeV x b).memory = s.memory := rfl
@[simp] theorem State.writeV_currentOpcode (s : State) (x : RegIdx) (b : Byte) : (s.writeV x b).currentOpcode = s.currentOpcode := rfl
@[simp] theorem State.writeV_drawFlag (s : State) (x : RegIdx) (b : Byte) : (s.writeV x b).drawFlag = s.drawFlag := rfl
@[simp] theorem State.writeV_keypad (s : State) (x : RegIdx) (b : Byte) : (s.writeV x b).keypad = s.keypad := rfl
@[simp] theorem State.writeV_px (s : State) (x : RegIdx) (b : Byte) : (s.writeV x b).px = s.px := rfl
@[simp] theorem State.writeV_halted (s : State) (x : RegIdx) (b : Byte) : (s.writeV x b).halted = s.halted := rfl
@[simp] theorem State.writeV_result (s : State) (x : RegIdx) (b : Byte) : (s.writeV x b).result = s.result := rfl
@[simp] theorem State.writeV_rndCalls (s : State) (x : RegIdx) (b : Byte) : (s.writeV x b).rndCalls = s.rndCalls := rfl
@[simp] theorem State.writeV_freeDraws (s : State) (x : RegIdx) (b : Byte) : (s.writeV x b).freeDraws = s.freeDraws := rfl

/-! ### loadV -/

@[simp] theorem State.loadV_v (s : State) (bs : List Byte) : (s.loadV bs).v = loadRegs s.v bs := rfl
@[simp] theorem State.loadV_pc (s : State) (bs : List Byte) : (s.loadV bs).pc = s.pc := by simp only [State.loadV]
@[simp] theorem State.loadV_i (s : State) (bs : List Byte) : (s.loadV bs).i = s.i := by simp only [State.loadV]
@[simp] theorem State.loadV_stack (s : State) (bs : List Byte) : (s.loadV bs).stack = s.stack := by simp only [State.loadV]
@[simp] theorem State.loadV_sp (s : State) (bs : List Byte) : (s.loadV bs).sp = s.sp := by simp only [State.loadV]
@[simp] theorem State.loadV_delayTimer (s : State) (bs : List Byte) : (s.loadV bs).delayTimer = s.delayTimer := by simp only [State.loadV]
@[simp] theorem State.loadV_soundTimer (s : State) (bs : List Byte) : (s.loadV bs).soundTimer = s.soundTimer := by simp only [State.loadV]
@[simp] theorem State.loadV_memory (s : State) (bs : List Byte) : (s.loadV bs).memory = s.memory := by simp only [State.loadV]
@[simp] theorem State.loadV_currentOpcode (s : State) (bs : List Byte) : (s.loadV bs).currentOpcode = s.currentOpcode := by simp only [State.loadV]
@[simp] theorem State.loadV_drawFlag (s : State) (bs : List Byte) : (s.loadV bs).drawFlag = s.drawFlag := by simp only [State.loadV]
@[simp] theorem State.loadV_keypad (s : State) (bs : List Byte) : (s.loadV bs).keypad = s.keypad := by simp only [State.loadV]
@[simp] theorem State.loadV_px (s : State) (bs : List Byte) : (s.loadV bs).px = s.px := by simp only [State.loadV]
@[simp] theorem State.loadV_halted (s : State) (bs : List Byte) : (s.loadV bs).halted = s.halted := by simp only [State.loadV]
@[simp] theorem State.loadV_result (s : State) (bs : List Byte) : (s.loadV bs).result = s.result := by simp only [State.loadV]
@[simp] theorem State.loadV_rndCalls (s : State) (bs : List Byte) : (s.loadV bs).rndCalls = s.rndCalls := by simp only [State.loadV]
@[simp] theorem State.loadV_freeDraws (s : State) (bs : List Byte) : (s.loadV bs).freeDraws = s.freeDraws := by simp only [State.loadV]

/-! ### writeI -/

@[simp] theorem State.writeI_v (s : State) (a : Word) : (s.writeI a).v = s.v := rfl
@[simp] theorem State.writeI_pc (s : State) (a : Word) : (s.writeI a).pc = s.pc := rfl
@[simp] theorem State.writeI_i (s : State) (a : Word) : (s.writeI a).i = a := rfl
@[simp] theorem State.writeI_stack (s : State) (a : Word) : (s.writeI a).stack = s.stack := rfl
@[simp] theorem State.writeI_sp (s : State) (a : Word) : (s.writeI a).sp = s.sp := rfl
@[simp] theorem State.writeI_delayTimer (s : State) (a : Word) : (s.writeI a).delayTimer = s.delayTimer := rfl
@[simp] theorem State.writeI_soundTimer (s : State) (a : Word) : (s.writeI a).soundTimer = s.soundTimer := rfl
@[simp] theorem State.writeI_memory (s : State) (a : Word) : (s.writeI a).memory = s.memory := rfl
@[simp] theorem State.writeI_currentOpcode (s : State) (a : Word) : (s.writeI a).currentOpcode = s.currentOpcode := rfl
@[simp] theorem State.writeI_drawFlag (s : State) (a : Word) : (s.writeI a).drawFlag = s.drawFlag := rfl
@[simp] theorem State.writeI_keypad (s : State) (a : Word) : (s.writeI a).keypad = s.keypad := rfl
@[simp] theorem State.writeI_px (s : State) (a : Word) : (s.writeI a).px = s.px := rfl
@[simp] theorem State.writeI_halted (s : State) (a : Word) : (s.writeI a).halted = s.halted := rfl
@[simp] theorem State.writeI_result (s : State) (a : Word) : (s.writeI a).result = s.result := rfl
@[simp] theorem State.writeI_rndCalls (s : State) (a : Word) : (s.writeI a).rndCalls = s.rndCalls := rfl
@[simp] theorem State.writeI_freeDraws (s : State) (a : Word) : (s.writeI a).freeDraws = s.freeDraws := rfl

/-! ### writePc -/

@[simp] theorem State.writePc_v (s : State) (t : Word) : (s.writePc t).v = s.v := rfl
@[simp] theorem State.writePc_pc (s : State) (t : Word) : (s.writePc t).pc = t := rfl
@[simp] theorem State.writePc_i (s : State) (t : Word) : (s.writePc t).i = s.i := rfl
@[simp] theorem State.writePc_stack (s : State) (t : Word) : (s.writePc t).stack = s.stack := rfl
@[simp] theorem State.writePc_sp (s : State) (t : Word) : (s.writePc t).sp = s.sp := rfl
@[simp] theorem State.writePc_delayTimer (s : State) (t : Word) : (s.writePc t).delayTimer = s.delayTimer := rfl
@[simp] theorem State.writePc_soundTimer (s : State) (t : Word) : (s.writePc t).soundTimer = s.soundTimer := rfl
@[simp] theorem State.writePc_memory (s : State) (t : Word) : (s.writePc t).memory = s.memory := rfl
@[simp] theorem State.writePc_currentOpcode (s : State) (t : Word) : (s.writePc t).currentOpcode = s.currentOpcode := rfl
@[simp] theorem State.writePc_drawFlag (s : State) (t : Word) : (s.writePc t).drawFlag = s.drawFlag := rfl
@[simp] theorem State.writePc_keypad (s : State) (t : Word) : (s.writePc t).keypad = s.keypad := rfl
@[simp] theorem State.writePc_px (s : State) (t : Word) : (s.writePc t).px = s.px := rfl
@[simp] theorem State.writePc_halted (s : State) (t : Word) : (s.writePc t).halted = s.halted := rfl
@[simp] theorem State.writePc_result (s : State) (t : Word) : (s.writePc t).result = s.result := rfl
@[simp] theorem State.writePc_rndCalls (s : State) (t : Word) : (s.writePc t).rndCalls = s.rndCalls := rfl
@[simp] theorem State.writePc_freeDraws (s : State) (t : Word) : (s.writePc t).freeDraws = s.freeDraws := rfl

/-! ### advance -/

@[simp] theorem State.advance_v (s : State) : (s.advance).v = s.v := rfl
@[simp] theorem State.advance_pc (s : State) : (s.advance).pc = s.pc + 2 := rfl
@[simp] theorem State.advance_i (s : State) : (s.advance).i = s.i := rfl
@[simp] theorem State.advance_stack (s : State) : (s.advance).stack = s.stack := rfl
@[simp] theorem State.advance_sp (s : State) : (s.advance).sp = s.sp := rfl
@[simp] theorem State.advance_delayTimer (s : State) : (s.advance).delayTimer = s.delayTimer := rfl
@[simp] theorem State.advance_soundTimer (s : State) : (s.advance).soundTimer = s.soundTimer := rfl
@[simp] theorem State.advance_memory (s : State) : (s.advance).memory = s.memory := rfl
@[simp] theorem State.advance_currentOpcode (s : State) : (s.advance).currentOpcode = s.currentOpcode := rfl
@[simp] theorem State.advance_drawFlag (s : State) : (s.advance).drawFlag = s.drawFlag := rfl
@[simp] theorem State.advance_keypad (s : State) : (s.advance).keypad = s.keypad := rfl
@[simp] theorem State.advance_px (s : State) : (s.advance).px = s.px := rfl
@[simp] theorem State.advance_halted (s : State) : (s.advance).halted = s.halted := rfl
@[simp] theorem State.advance_result (s : State) : (s.advance).result = s.result := rfl
@[simp] theorem State.advance_rndCalls (s : State) : (s.advance).rndCalls = s.rndCalls := rfl
@[simp] theorem State.advance_freeDraws (s : State) : (s.advance).freeDraws = s.freeDraws := rfl

/-! ### writeDelay -/

@[simp] theorem State.writeDelay_v (s : State) (b : Byte) : (s.writeDelay b).v = s.v := rfl
@[simp] theorem State.writeDelay_pc (s : State) (b : Byte) : (s.writeDelay b).pc = s.pc := rfl
@[simp] theorem State.writeDelay_i (s : State) (b : Byte) : (s.writeDelay b).i = s.i := rfl
@[simp] theorem State.writeDelay_stack (s : State) (b : Byte) : (s.writeDelay b).stack = s.stack := rfl
@[simp] theorem State.writeDelay_sp (s : State) (b : Byte) : (s.writeDelay b).sp = s.sp := rfl
@[simp] theorem State.writeDelay_delayTimer (s : State) (b : Byte) : (s.writeDelay b).delayTimer = b := rfl
@[simp] theorem State.writeDelay_soundTimer (s : State) (b : Byte) : (s.writeDelay b).soundTimer = s.soundTimer := rfl
@[simp] theorem State.writeDelay_memory (s : State) (b : Byte) : (s.writeDelay b).memory = s.memory := rfl
@[simp] theorem State.writeDelay_currentOpcode (s : State) (b : Byte) : (s.writeDelay b).currentOpcode = s.currentOpcode := rfl
@[simp] theorem State.writeDelay_drawFlag (s : State) (b : Byte) : (s.writeDelay b).drawFlag = s.drawFlag := rfl
@[simp] theorem State.writeDelay_keypad (s : State) (b : Byte) : (s.writeDelay b).keypad = s.keypad := rfl
@[simp] theorem State.writeDelay_px (s : State) (b : Byte) : (s.writeDelay b).px = s.px := rfl
@[simp] theorem State.writeDelay_halted (s : State) (b : Byte) : (s.writeDelay b).halted = s.halted := rfl
@[simp] theorem State.writeDelay_result (s : State) (b : Byte) : (s.writeDelay b).result = s.result := rfl
@[simp] theorem State.writeDelay_rndCalls (s : State) (b : Byte) : (s.writeDelay b).rndCalls = s.rndCalls := rfl
@[simp] theorem State.writeDelay_freeDraws (s : State) (b : Byte) : (s.writeDelay b).freeDraws = s.freeDraws := rfl

/-! ### writeSound -/

@[simp] theorem State.writeSound_v (s : State) (b : Byte) : (s.writeSound b).v = s.v := rfl
@[simp] theorem State.writeSound_pc (s : State) (b : Byte) : (s.writeSound b).pc = s.pc := rfl
@[simp] theorem State.writeSound_i (s : State) (b : Byte) : (s.writeSound b).i = s.i := rfl
@[simp] theorem State.writeSound_stack (s : State) (b : Byte) : (s.writeSound b).stack = s.stack := rfl
@[simp] theorem State.writeSound_sp (s : State) (b : Byte) : (s.writeSound b).sp = s.sp := rfl
@[simp] theorem State.writeSound_delayTimer (s : State) (b : Byte) : (s.writeSound b).delayTimer = s.delayTimer := rfl
@[simp] theorem State.writeSound_soundTimer (s : State) (b : Byte) : (s.writeSound b).soundTimer = b := rfl
@[simp] theorem State.writeSound_memory (s : State) (b : Byte) : (s.writeSound b).memory = s.memory := rfl
@[simp] theorem State.writeSound_currentOpcode (s : State) (b : Byte) : (s.writeSound b).currentOpcode = s.currentOpcode := rfl
@[simp] theorem State.writeSound_drawFlag (s : State) (b : Byte) : (s.writeSound b).drawFlag = s.drawFlag := rfl
@[simp] theorem State.writeSound_keypad (s : State) (b : Byte) : (s.writeSound b).keypad = s.keypad := rfl
@[simp] theorem State.writeSound_px (s : State) (b : Byte) : (s.writeSound b).px = s.px := rfl
@[simp] theorem State.writeSound_halted (s : State) (b : Byte) : (s.writeSound b).halted = s.halted := rfl
@[simp] theorem State.writeSound_result (s : State) (b : Byte) : (s.writeSound b).result = s.result := rfl
@[simp] theorem State.writeSound_rndCalls (s : State) (b : Byte) : (s.writeSound b).rndCalls = s.rndCalls := rfl
@[simp] theorem State.writeSound_freeDraws (s : State) (b : Byte) : (s.writeSound b).freeDraws = s.freeDraws := rfl

/-! ### writeMemory -/

@[simp] theorem State.writeMemory_v (s : State) (m : Memory) : (s.writeMemory m).v = s.v := rfl
@[simp] theorem State.writeMemory_pc (s : State) (m : Memory) : (s.writeMemory m).pc = s.pc := rfl
@[simp] theorem State.writeMemory_i (s : State) (m : Memory) : (s.writeMemory m).i = s.i := rfl
@[simp] theorem State.writeMemory_stack (s : State) (m : Memory) : (s.writeMemory m).stack = s.stack := rfl
@[simp] theorem State.writeMemory_sp (s : State) (m : Memory) : (s.writeMemory m).sp = s.sp := rfl
@[simp] theorem State.writeMemory_delayTimer (s : State) (m : Memory) : (s.writeMemory m).delayTimer = s.delayTimer := rfl
@[simp] theorem State.writeMemory_soundTimer (s : State) (m : Memory) : (s.writeMemory m).soundTimer = s.soundTimer := rfl
@[simp] theorem State.writeMemory_memory (s : State) (m : Memory) : (s.writeMemory m).memory = m := rfl
@[simp] theorem State.writeMemory_currentOpcode (s : State) (m : Memory) : (s.writeMemory m).currentOpcode = s.currentOpcode := rfl
@[simp] theorem State.writeMemory_drawFlag (s : State) (m : Memory) : (s.writeMemory m).drawFlag = s.drawFlag := rfl
@[simp] theorem State.writeMemory_keypad (s : State) (m : Memory) : (s.writeMemory m).keypad = s.keypad := rfl
@[simp] theorem State.writeMemory_px (s : State) (m : Memory) : (s.writeMemory m).px = s.px := rfl
@[simp] theorem State.writeMemory_halted (s : State) (m : Memory) : (s.writeMemory m).halted = s.halted := rfl
@[simp] theorem State.writeMemory_result (s : State) (m : Memory) : (s.writeMemory m).result = s.result := rfl
@[simp] theorem State.writeMemory_rndCalls (s : State) (m : Memory) : (s.writeMemory m).rndCalls = s.rndCalls := rfl
@[simp] theorem State.writeMemory_freeDraws (s : State) (m : Memory) : (s.writeMemory m).freeDraws = s.freeDraws := rfl

/-! ### writePx -/

@[simp] theorem State.writePx_v (s : State) (p : Surface) : (s.writePx p).v = s.v := rfl
@[simp] theorem State.writePx_pc (s : State) (p : Surface) : (s.writePx p).pc = s.pc := rfl
@[simp] theorem State.writePx_i (s : State) (p : Surface) : (s.writePx p).i = s.i := rfl
@[simp] theorem State.writePx_stack (s : State) (p : Surface) : (s.writePx p).stack = s.stack := rfl
@[simp] theorem State.writePx_sp (s : State) (p : Surface) : (s.writePx p).sp = s.sp := rfl
@[simp] theorem State.writePx_delayTimer (s : State) (p : Surface) : (s.writePx p).delayTimer = s.delayTimer := rfl
@[simp] theorem State.writePx_soundTimer (s : State) (p : Surface) : (s.writePx p).soundTimer = s.soundTimer := rfl
@[simp] theorem State.writePx_memory (s : State) (p : Surface) : (s.writePx p).memory = s.memory := rfl
@[simp] theorem State.writePx_currentOpcode (s : State) (p : Surface) : (s.writePx p).currentOpcode = s.currentOpcode := rfl
@[simp] theorem State.writePx_drawFlag (s : State) (p : Surface) : (s.writePx p).drawFlag = s.drawFlag := rfl
@[simp] theorem State.writePx_keypad (s : State) (p : Surface) : (s.writePx p).keypad = s.keypad := rfl
@[simp] theorem State.writePx_px (s : State) (p : Surface) : (s.writePx p).px = p := rfl
@[simp] theorem State.writePx_halted (s : State) (p : Surface) : (s.writePx p).halted = s.halted := rfl
@[simp] theorem State.writePx_result (s : State) (p : Surface) : (s.writePx p).result = s.result := rfl
@[simp] theorem State.writePx_rndCalls (s : State) (p : Surface) : (s.writePx p).rndCalls = s.rndCalls := rfl
@[simp] theorem State.writePx_freeDraws (s : State) (p : Surface) : (s.writePx p).freeDraws = s.freeDraws := rfl

/-! ### writeDrawFlag -/

@[simp] theorem State.writeDrawFlag_v (s : State) (b : Bool) : (s.writeDrawFlag b).v = s.v := rfl
@[simp] theorem State.writeDrawFlag_pc (s : State) (b : Bool) : (s.writeDrawFlag b).pc = s.pc := rfl
@[simp] theorem State.writeDrawFlag_i (s : State) (b : Bool) : (s.writeDrawFlag b).i = s.i := rfl
@[simp] theorem State.writeDrawFlag_stack (s : State) (b : Bool) : (s.writeDrawFlag b).stack = s.stack := rfl
@[simp] theorem State.writeDrawFlag_sp (s : State) (b : Bool) : (s.writeDrawFlag b).sp = s.sp := rfl
@[simp] theorem State.writeDrawFlag_delayTimer (s : State) (b : Bool) : (s.writeDrawFlag b).delayTimer = s.delayTimer := rfl
@[simp] theorem State.writeDrawFlag_soundTimer (s : State) (b : Bool) : (s.writeDrawFlag b).soundTimer = s.soundTimer := rfl
@[simp] theorem State.writeDrawFlag_memory (s : State) (b : Bool) : (s.writeDrawFlag b).memory = s.memory := rfl
@[simp] theorem State.writeDrawFlag_currentOpcode (s : State) (b : Bool) : (s.writeDrawFlag b).currentOpcode = s.currentOpcode := rfl
@[simp] theorem State.writeDrawFlag_drawFlag (s : State) (b : Bool) : (s.writeDrawFlag b).drawFlag = b := rfl
@[simp] theorem State.writeDrawFlag_keypad (s : State) (b : Bool) : (s.writeDrawFlag b).keypad = s.keypad := rfl
@[simp] theorem State.writeDrawFlag_px (s : State) (b : Bool) : (s.writeDrawFlag b).px = s.px := rfl
@[simp] theorem State.writeDrawFlag_halted (s : State) (b : Bool) : (s.writeDrawFlag b).halted = s.halted := rfl
@[simp] theorem State.writeDrawFlag_result (s : State) (b : Bool) : (s.writeDrawFlag b).result = s.result := rfl
@[simp] theorem State.writeDrawFlag_rndCalls (s : State) (b : Bool) : (s.writeDrawFlag b).rndCalls = s.rndCalls := rfl
@[simp] theorem State.writeDrawFlag_freeDraws (s : State) (b : Bool) : (s.writeDrawFlag b).freeDraws = s.freeDraws := rfl

/-! ### pop -/

@[simp] theorem State.pop_v (s : State) : (s.pop).v = s.v := rfl
@[simp] theorem State.pop_pc (s : State) : (s.pop).pc = s.pc := rfl
@[simp] theorem State.pop_i (s : State) : (s.pop).i = s.i := rfl
@[simp] theorem State.pop_stack (s : State) : (s.pop).stack = s.stack := rfl
@[simp] theorem State.pop_delayTimer (s : State) : (s.pop).delayTimer = s.delayTimer := rfl
@[simp] theorem State.pop_soundTimer (s : State) : (s.pop).soundTimer = s.soundTimer := rfl
@[simp] theorem State.pop_memory (s : State) : (s.pop).memory = s.memory := rfl
@[simp] theorem State.pop_currentOpcode (s : State) : (s.pop).currentOpcode = s.currentOpcode := rfl
@[simp] theorem State.pop_drawFlag (s : State) : (s.pop).drawFlag = s.drawFlag := rfl
@[simp] theorem State.pop_keypad (s : State) : (s.pop).keypad = s.keypad := rfl
@[simp] theorem State.pop_px (s : State) : (s.pop).px = s.px := rfl
@[simp] theorem State.pop_halted (s : State) : (s.pop).halted = s.halted := rfl
@[simp] theorem State.pop_result (s : State) : (s.pop).result = s.result := rfl
@[simp] theorem State.pop_rndCalls (s : State) : (s.pop).rndCalls = s.rndCalls := rfl
@[simp] theorem State.pop_freeDraws (s : State) : (s.pop).freeDraws = s.freeDraws := rfl

/-! ### countRnd -/

@[simp] theorem State.countRnd_v (s : State) : (s.countRnd).v = s.v := rfl
@[simp] theorem State.countRnd_pc (s : State) : (s.countRnd).pc = s.pc := rfl
@[simp] theorem State.countRnd_i (s : State) : (s.countRnd).i = s.i := rfl
@[simp] theorem State.countRnd_stack (s : State) : (s.countRnd).stack = s.stack := rfl
@[simp] theorem State.countRnd_sp (s : State) : (s.countRnd).sp = s.sp := rfl
@[simp] theorem State.countRnd_delayTimer (s : State) : (s.countRnd).delayTimer = s.delayTimer := rfl
@[simp] theorem State.countRnd_soundTimer (s : State) : (s.countRnd).soundTimer = s.soundTimer := rfl
@[simp] theorem State.countRnd_memory (s : State) : (s.countRnd).memory = s.memory := rfl
@[simp] theorem State.countRnd_currentOpcode (s : State) : (s.countRnd).currentOpcode = s.currentOpcode := rfl
@[simp] theorem State.countRnd_drawFlag (s : State) : (s.countRnd).drawFlag = s.drawFlag := rfl
@[simp] theorem State.countRnd_keypad (s : State) : (s.countRnd).keypad = s.keypad := rfl
@[simp] theorem State.countRnd_px (s : State) : (s.countRnd).px = s.px := rfl
@[simp] theorem State.countRnd_halted (s : State) : (s.countRnd).halted = s.halted := rfl
@[simp] theorem State.countRnd_result (s : State) : (s.countRnd).result = s.result := rfl
@[simp] theorem State.countRnd_rndCalls (s : State) : (s.countRnd).rndCalls = s.rndCalls + 1 := rfl
@[simp] theorem State.countRnd_freeDraws (s : State) : (s.countRnd).freeDraws = s.freeDraws := rfl

/-! ### countDraw -/

@[simp] theorem State.countDraw_v (s : State) : (s.countDraw).v = s.v := rfl
@[simp] theorem State.countDraw_pc (s : State) : (s.countDraw).pc = s.pc := rfl
@[simp] theorem State.countDraw_i (s : State) : (s.countDraw).i = s.i := rfl
@[simp] theorem State.countDraw_stack (s : State) : (s.countDraw).stack = s.stack := rfl
@[simp] theorem State.countDraw_sp (s : State) : (s.countDraw).sp = s.sp := rfl
@[simp] theorem State.countDraw_delayTimer (s : State) : (s.countDraw).delayTimer = s.delayTimer := rfl
@[simp] theorem State.countDraw_soundTimer (s : State) : (s.countDraw).soundTimer = s.soundTimer := rfl
@[simp] theorem State.countDraw_memory (s : State) : (s.countDraw).memory = s.memory := rfl
@[simp] theorem State.countDraw_currentOpcode (s : State) : (s.countDraw).currentOpcode = s.currentOpcode := rfl
@[simp] theorem State.countDraw_drawFlag (s : State) : (s.countDraw).drawFlag = s.drawFlag := rfl
@[simp] theorem State.countDraw_keypad (s : State) : (s.countDraw).keypad = s.keypad := rfl
@[simp] theorem State.countDraw_px (s : State) : (s.countDraw).px = s.px := rfl
@[simp] theorem State.countDraw_halted (s : State) : (s.countDraw).halted = s.halted := rfl
@[simp] theorem State.countDraw_result (s : State) : (s.countDraw).result = s.result := rfl
@[simp] theorem State.countDraw_rndCalls (s : State) : (s.countDraw).rndCalls = s.rndCalls := rfl
@[simp] theorem State.countDraw_freeDraws (s : State) : (s.countDraw).freeDraws = s.freeDraws + 1 := rfl

/-! ### latchOpcode -/

@[simp] theorem State.latchOpcode_v (s : State) (op : Word) : (s.latchOpcode op).v = s.v := rfl
@[simp] theorem State.latchOpcode_pc (s : State) (op : Word) : (s.latchOpcode op).pc = s.pc := rfl
@[simp] theorem State.latchOpcode_i (s : State) (op : Word) : (s.latchOpcode op).i = s.i := rfl
@[simp] theorem State.latchOpcode_stack (s : State) (op : Word) : (s.latchOpcode op).stack = s.stack := rfl
@[simp] theorem State.latchOpcode_sp (s : State) (op : Word) : (s.latchOpcode op).sp = s.sp := rfl
@[simp] theorem State.latchOpcode_delayTimer (s : State) (op : Word) : (s.latchOpcode op).delayTimer = s.delayTimer := rfl
@[simp] theorem State.latchOpcode_soundTimer (s : State) (op : Word) : (s.latchOpcode op).soundTimer = s.soundTimer := rfl
@[simp] theorem State.latchOpcode_memory (s : State) (op : Word) : (s.latchOpcode op).memory = s.memory := rfl
@[simp] theorem State.latchOpcode_currentOpcode (s : State) (op : Word) : (s.latchOpcode op).currentOpcode = op := rfl
@[simp] theorem State.latchOpcode_drawFlag (s : State) (op : Word) : (s.latchOpcode op).drawFlag = s.drawFlag := rfl
@[simp] theorem State.latchOpcode_keypad (s : State) (op : Word) : (s.latchOpcode op).keypad = s.keypad := rfl
@[simp] theorem State.latchOpcode_px (s : State) (op : Word) : (s.latchOpcode op).px = s.px := rfl
@[simp] theorem State.latchOpcode_halted (s : State) (op : Word) : (s.latchOpcode op).halted = s.halted := rfl
@[simp] theorem State.latchOpcode_result (s : State) (op : Word) : (s.latchOpcode op).result = s.result := rfl
@[simp] theorem State.latchOpcode_rndCalls (s : State) (op : Word) : (s.latchOpcode op).rndCalls = s.rndCalls := rfl
@[simp] theorem State.latchOpcode_freeDraws (s : State) (op : Word) : (s.latchOpcode op).freeDraws = s.freeDraws := rfl

/-! ### scribbleMemory -/

@[simp] theorem State.scribbleMemory_v (s : State) (a n : Nat) : (s.scribbleMemory a n).v = s.v := rfl
@[simp] theorem State.scribbleMemory_pc (s : State) (a n : Nat) : (s.scribbleMemory a n).pc = s.pc := rfl
@[simp] theorem State.scribbleMemory_i (s : State) (a n : Nat) : (s.scribbleMemory a n).i = s.i := rfl
@[simp] theorem State.scribbleMemory_stack (s : State) (a n : Nat) : (s.scribbleMemory a n).stack = s.stack := rfl
@[simp] theorem State.scribbleMemory_sp (s : State) (a n : Nat) : (s.scribbleMemory a n).sp = s.sp := rfl
@[simp] theorem State.scribbleMemory_delayTimer (s : State) (a n : Nat) : (s.scribbleMemory a n).delayTimer = s.delayTimer := rfl
@[simp] theorem State.scribbleMemory_soundTimer (s : State) (a n : Nat) : (s.scribbleMemory a n).soundTimer = s.soundTimer := rfl
@[simp] theorem State.scribbleMemory_memory (s : State) (a n : Nat) : (s.scribbleMemory a n).memory = scribbleBytes s.memory s.freeDraws a n := rfl
@[simp] theorem State.scribbleMemory_currentOpcode (s : State) (a n : Nat) : (s.scribbleMemory a n).currentOpcode = s.currentOpcode := rfl
@[simp] theorem State.scribbleMemory_drawFlag (s : State) (a n : Nat) : (s.scribbleMemory a n).drawFlag = s.drawFlag := rfl
@[simp] theorem State.scribbleMemory_keypad (s : State) (a n : Nat) : (s.scribbleMemory a n).keypad = s.keypad := rfl
@[simp] theorem State.scribbleMemory_px (s : State) (a n : Nat) : (s.scribbleMemory a n).px = s.px := rfl
@[simp] theorem State.scribbleMemory_halted (s : State) (a n : Nat) : (s.scribbleMemory a n).halted = s.halted := rfl
@[simp] theorem State.scribbleMemory_result (s : State) (a n : Nat) : (s.scribbleMemory a n).result = s.result := rfl
@[simp] theorem State.scribbleMemory_rndCalls (s : State) (a n : Nat) : (s.scribbleMemory a n).rndCalls = s.rndCalls := rfl
@[simp] theorem State.scribbleMemory_freeDraws (s : State) (a n : Nat) : (s.scribbleMemory a n).freeDraws = s.freeDraws + 1 := rfl

/-! ### scribbleV -/

@[simp] theorem State.scribbleV_pc (s : State) (n : Nat) : (s.scribbleV n).pc = s.pc := by simp [State.scribbleV]
@[simp] theorem State.scribbleV_i (s : State) (n : Nat) : (s.scribbleV n).i = s.i := by simp [State.scribbleV]
@[simp] theorem State.scribbleV_stack (s : State) (n : Nat) : (s.scribbleV n).stack = s.stack := by simp [State.scribbleV]
@[simp] theorem State.scribbleV_sp (s : State) (n : Nat) : (s.scribbleV n).sp = s.sp := by simp [State.scribbleV]
@[simp] theorem State.scribbleV_delayTimer (s : State) (n : Nat) : (s.scribbleV n).delayTimer = s.delayTimer := by simp [State.scribbleV]
@[simp] theorem State.scribbleV_soundTimer (s : State) (n : Nat) : (s.scribbleV n).soundTimer = s.soundTimer := by simp [State.scribbleV]
@[simp] theorem State.scribbleV_memory (s : State) (n : Nat) : (s.scribbleV n).memory = s.memory := by simp [State.scribbleV]
@[simp] theorem State.scribbleV_currentOpcode (s : State) (n : Nat) : (s.scribbleV n).currentOpcode = s.currentOpcode := by simp [State.scribbleV]
@[simp] theorem State.scribbleV_drawFlag (s : State) (n : Nat) : (s.scribbleV n).drawFlag = s.drawFlag := by simp [State.scribbleV]
@[simp] theorem State.scribbleV_keypad (s : State) (n : Nat) : (s.scribbleV n).keypad = s.keypad := by simp [State.scribbleV]
@[simp] theorem State.scribbleV_px (s : State) (n : Nat) : (s.scribbleV n).px = s.px := by simp [State.scribbleV]
@[simp] theorem State.scribbleV_halted (s : State) (n : Nat) : (s.scribbleV n).halted = s.halted := by simp [State.scribbleV]
@[simp] theorem State.scribbleV_result (s : State) (n : Nat) : (s.scribbleV n).result = s.result := by simp [State.scribbleV]
@[simp] theorem State.scribbleV_rndCalls (s : State) (n : Nat) : (s.scribbleV n).rndCalls = s.rndCalls := by simp [State.scribbleV]
@[simp] theorem State.scribbleV_freeDraws (s : State) (n : Nat) : (s.scribbleV n).freeDraws = s.freeDraws + 1 := by simp [State.scribbleV]

/-! ### scribblePx -/

@[simp] theorem State.scribblePx_v (s : State) (cells : List Nat) : (s.scribblePx cells).v = s.v.set regVF (Config.freeByte s.freeDraws 0) := rfl
@[simp] theorem State.scribblePx_pc (s : State) (cells : List Nat) : (s.scribblePx cells).pc = s.pc := rfl
@[simp] theorem State.scribblePx_i (s : State) (cells : List Nat) : (s.scribblePx cells).i = s.i := rfl
@[simp] theorem State.scribblePx_stack (s : State) (cells : List Nat) : (s.scribblePx cells).stack = s.stack := rfl
@[simp] theorem State.scribblePx_sp (s : State) (cells : List Nat) : (s.scribblePx cells).sp = s.sp := rfl
@[simp] theorem State.scribblePx_delayTimer (s : State) (cells : List Nat) : (s.scribblePx cells).delayTimer = s.delayTimer := rfl
@[simp] theorem State.scribblePx_soundTimer (s : State) (cells : List Nat) : (s.scribblePx cells).soundTimer = s.soundTimer := rfl
@[simp] theorem State.scribblePx_memory (s : State) (cells : List Nat) : (s.scribblePx cells).memory = s.memory := rfl
@[simp] theorem State.scribblePx_currentOpcode (s : State) (cells : List Nat) : (s.scribblePx cells).currentOpcode = s.currentOpcode := rfl
@[simp] theorem State.scribblePx_drawFlag (s : State) (cells : List Nat) : (s.scribblePx cells).drawFlag = Config.freeFlag s.freeDraws := rfl
@[simp] theorem State.scribblePx_keypad (s : State) (cells : List Nat) : (s.scribblePx cells).keypad = s.keypad := rfl
@[simp] theorem State.scribblePx_px (s : State) (cells : List Nat) : (s.scribblePx cells).px = pxCopy (Config.freePixels s.freeDraws) cells s.px := rfl
@[simp] theorem State.scribblePx_halted (s : State) (cells : List Nat) : (s.scribblePx cells).halted = s.halted := rfl
@[simp] theorem State.scribblePx_result (s : State) (cells : List Nat) : (s.scribblePx cells).result = s.result := rfl
@[simp] theorem State.scribblePx_rndCalls (s : State) (cells : List Nat) : (s.scribblePx cells).rndCalls = s.rndCalls := rfl
@[simp] theorem State.scribblePx_freeDraws (s : State) (cells : List Nat) : (s.scribblePx cells).freeDraws = s.freeDraws + 1 := rfl

/-! ### scribbleVf -/

@[simp] theorem State.scribbleVf_v (s : State) : s.scribbleVf.v = s.v.set regVF (Config.freeByte s.freeDraws 0) := rfl
@[simp] theorem State.scribbleVf_pc (s : State) : s.scribbleVf.pc = s.pc := rfl
@[simp] theorem State.scribbleVf_i (s : State) : s.scribbleVf.i = s.i := rfl
@[simp] theorem State.scribbleVf_stack (s : State) : s.scribbleVf.stack = s.stack := rfl
@[simp] theorem State.scribbleVf_sp (s : State) : s.scribbleVf.sp = s.sp := rfl
@[simp] theorem State.scribbleVf_delayTimer (s : State) : s.scribbleVf.delayTimer = s.delayTimer := rfl
@[simp] theorem State.scribbleVf_soundTimer (s : State) : s.scribbleVf.soundTimer = s.soundTimer := rfl
@[simp] theorem State.scribbleVf_memory (s : State) : s.scribbleVf.memory = s.memory := rfl
@[simp] theorem State.scribbleVf_currentOpcode (s : State) : s.scribbleVf.currentOpcode = s.currentOpcode := rfl
@[simp] theorem State.scribbleVf_drawFlag (s : State) : s.scribbleVf.drawFlag = s.drawFlag := rfl
@[simp] theorem State.scribbleVf_keypad (s : State) : s.scribbleVf.keypad = s.keypad := rfl
@[simp] theorem State.scribbleVf_px (s : State) : s.scribbleVf.px = s.px := rfl
@[simp] theorem State.scribbleVf_halted (s : State) : s.scribbleVf.halted = s.halted := rfl
@[simp] theorem State.scribbleVf_result (s : State) : s.scribbleVf.result = s.result := rfl
@[simp] theorem State.scribbleVf_rndCalls (s : State) : s.scribbleVf.rndCalls = s.rndCalls := rfl
@[simp] theorem State.scribbleVf_freeDraws (s : State) : s.scribbleVf.freeDraws = s.freeDraws + 1 := rfl

/-! ### latchResult -/

@[simp] theorem State.latchResult_v (s : State) (r : StepResult) : (s.latchResult r).v = s.v := rfl
@[simp] theorem State.latchResult_pc (s : State) (r : StepResult) : (s.latchResult r).pc = s.pc := rfl
@[simp] theorem State.latchResult_i (s : State) (r : StepResult) : (s.latchResult r).i = s.i := rfl
@[simp] theorem State.latchResult_stack (s : State) (r : StepResult) : (s.latchResult r).stack = s.stack := rfl
@[simp] theorem State.latchResult_sp (s : State) (r : StepResult) : (s.latchResult r).sp = s.sp := rfl
@[simp] theorem State.latchResult_delayTimer (s : State) (r : StepResult) : (s.latchResult r).delayTimer = s.delayTimer := rfl
@[simp] theorem State.latchResult_soundTimer (s : State) (r : StepResult) : (s.latchResult r).soundTimer = s.soundTimer := rfl
@[simp] theorem State.latchResult_memory (s : State) (r : StepResult) : (s.latchResult r).memory = s.memory := rfl
@[simp] theorem State.latchResult_currentOpcode (s : State) (r : StepResult) : (s.latchResult r).currentOpcode = s.currentOpcode := rfl
@[simp] theorem State.latchResult_drawFlag (s : State) (r : StepResult) : (s.latchResult r).drawFlag = s.drawFlag := rfl
@[simp] theorem State.latchResult_keypad (s : State) (r : StepResult) : (s.latchResult r).keypad = s.keypad := rfl
@[simp] theorem State.latchResult_px (s : State) (r : StepResult) : (s.latchResult r).px = s.px := rfl
@[simp] theorem State.latchResult_halted (s : State) (r : StepResult) : (s.latchResult r).halted = s.halted := rfl
@[simp] theorem State.latchResult_result (s : State) (r : StepResult) : (s.latchResult r).result = some r := rfl
@[simp] theorem State.latchResult_rndCalls (s : State) (r : StepResult) : (s.latchResult r).rndCalls = s.rndCalls := rfl
@[simp] theorem State.latchResult_freeDraws (s : State) (r : StepResult) : (s.latchResult r).freeDraws = s.freeDraws := rfl
@[simp] theorem State.readV_latchResult (s : State) (r : StepResult) (r0 : RegIdx) : (s.latchResult r).readV r0 = s.readV r0 := rfl

/-! ### latchHalted -/

@[simp] theorem State.latchHalted_v (s : State) (e : Error) : (s.latchHalted e).v = s.v := rfl
@[simp] theorem State.latchHalted_pc (s : State) (e : Error) : (s.latchHalted e).pc = s.pc := rfl
@[simp] theorem State.latchHalted_i (s : State) (e : Error) : (s.latchHalted e).i = s.i := rfl
@[simp] theorem State.latchHalted_stack (s : State) (e : Error) : (s.latchHalted e).stack = s.stack := rfl
@[simp] theorem State.latchHalted_sp (s : State) (e : Error) : (s.latchHalted e).sp = s.sp := rfl
@[simp] theorem State.latchHalted_delayTimer (s : State) (e : Error) : (s.latchHalted e).delayTimer = s.delayTimer := rfl
@[simp] theorem State.latchHalted_soundTimer (s : State) (e : Error) : (s.latchHalted e).soundTimer = s.soundTimer := rfl
@[simp] theorem State.latchHalted_memory (s : State) (e : Error) : (s.latchHalted e).memory = s.memory := rfl
@[simp] theorem State.latchHalted_currentOpcode (s : State) (e : Error) : (s.latchHalted e).currentOpcode = s.currentOpcode := rfl
@[simp] theorem State.latchHalted_drawFlag (s : State) (e : Error) : (s.latchHalted e).drawFlag = s.drawFlag := rfl
@[simp] theorem State.latchHalted_keypad (s : State) (e : Error) : (s.latchHalted e).keypad = s.keypad := rfl
@[simp] theorem State.latchHalted_px (s : State) (e : Error) : (s.latchHalted e).px = s.px := rfl
@[simp] theorem State.latchHalted_halted (s : State) (e : Error) : (s.latchHalted e).halted = some e := rfl
@[simp] theorem State.latchHalted_result (s : State) (e : Error) : (s.latchHalted e).result = s.result := rfl
@[simp] theorem State.latchHalted_rndCalls (s : State) (e : Error) : (s.latchHalted e).rndCalls = s.rndCalls := rfl
@[simp] theorem State.latchHalted_freeDraws (s : State) (e : Error) : (s.latchHalted e).freeDraws = s.freeDraws := rfl
@[simp] theorem State.readV_latchHalted (s : State) (e : Error) (r0 : RegIdx) : (s.latchHalted e).readV r0 = s.readV r0 := rfl

/-! ### push and skipIf, which have two cases -/

@[simp] theorem State.push_v (s : State) (r : Word) : (s.push r).v = s.v := by unfold State.push; split <;> rfl
@[simp] theorem State.push_pc (s : State) (r : Word) : (s.push r).pc = s.pc := by unfold State.push; split <;> rfl
@[simp] theorem State.push_i (s : State) (r : Word) : (s.push r).i = s.i := by unfold State.push; split <;> rfl
@[simp] theorem State.push_delayTimer (s : State) (r : Word) : (s.push r).delayTimer = s.delayTimer := by unfold State.push; split <;> rfl
@[simp] theorem State.push_soundTimer (s : State) (r : Word) : (s.push r).soundTimer = s.soundTimer := by unfold State.push; split <;> rfl
@[simp] theorem State.push_memory (s : State) (r : Word) : (s.push r).memory = s.memory := by unfold State.push; split <;> rfl
@[simp] theorem State.push_currentOpcode (s : State) (r : Word) : (s.push r).currentOpcode = s.currentOpcode := by unfold State.push; split <;> rfl
@[simp] theorem State.push_drawFlag (s : State) (r : Word) : (s.push r).drawFlag = s.drawFlag := by unfold State.push; split <;> rfl
@[simp] theorem State.push_keypad (s : State) (r : Word) : (s.push r).keypad = s.keypad := by unfold State.push; split <;> rfl
@[simp] theorem State.push_px (s : State) (r : Word) : (s.push r).px = s.px := by unfold State.push; split <;> rfl
@[simp] theorem State.push_halted (s : State) (r : Word) : (s.push r).halted = s.halted := by unfold State.push; split <;> rfl
@[simp] theorem State.push_result (s : State) (r : Word) : (s.push r).result = s.result := by unfold State.push; split <;> rfl
@[simp] theorem State.push_rndCalls (s : State) (r : Word) : (s.push r).rndCalls = s.rndCalls := by unfold State.push; split <;> rfl
@[simp] theorem State.push_freeDraws (s : State) (r : Word) : (s.push r).freeDraws = s.freeDraws := by unfold State.push; split <;> rfl
@[simp] theorem State.skipIf_v (s : State) (c : Bool) : (s.skipIf c).v = s.v := by cases c <;> rfl
@[simp] theorem State.skipIf_i (s : State) (c : Bool) : (s.skipIf c).i = s.i := by cases c <;> rfl
@[simp] theorem State.skipIf_stack (s : State) (c : Bool) : (s.skipIf c).stack = s.stack := by cases c <;> rfl
@[simp] theorem State.skipIf_sp (s : State) (c : Bool) : (s.skipIf c).sp = s.sp := by cases c <;> rfl
@[simp] theorem State.skipIf_delayTimer (s : State) (c : Bool) : (s.skipIf c).delayTimer = s.delayTimer := by cases c <;> rfl
@[simp] theorem State.skipIf_soundTimer (s : State) (c : Bool) : (s.skipIf c).soundTimer = s.soundTimer := by cases c <;> rfl
@[simp] theorem State.skipIf_memory (s : State) (c : Bool) : (s.skipIf c).memory = s.memory := by cases c <;> rfl
@[simp] theorem State.skipIf_currentOpcode (s : State) (c : Bool) : (s.skipIf c).currentOpcode = s.currentOpcode := by cases c <;> rfl
@[simp] theorem State.skipIf_drawFlag (s : State) (c : Bool) : (s.skipIf c).drawFlag = s.drawFlag := by cases c <;> rfl
@[simp] theorem State.skipIf_keypad (s : State) (c : Bool) : (s.skipIf c).keypad = s.keypad := by cases c <;> rfl
@[simp] theorem State.skipIf_px (s : State) (c : Bool) : (s.skipIf c).px = s.px := by cases c <;> rfl
@[simp] theorem State.skipIf_halted (s : State) (c : Bool) : (s.skipIf c).halted = s.halted := by cases c <;> rfl
@[simp] theorem State.skipIf_result (s : State) (c : Bool) : (s.skipIf c).result = s.result := by cases c <;> rfl
@[simp] theorem State.skipIf_rndCalls (s : State) (c : Bool) : (s.skipIf c).rndCalls = s.rndCalls := by cases c <;> rfl
@[simp] theorem State.skipIf_freeDraws (s : State) (c : Bool) : (s.skipIf c).freeDraws = s.freeDraws := by cases c <;> rfl

theorem State.skipIf_pc (s : State) (c : Bool) : (s.skipIf c).pc = if c then s.pc + 4 else s.pc + 2 := by
  cases c <;> rfl

theorem State.push_stack (s : State) (r : Word) (h : s.sp.val < 16) : (s.push r).stack = s.stack.set s.sp.val r := by
  simp [State.push, h]

theorem State.push_sp (s : State) (r : Word) (h : s.sp.val < 16) : (s.push r).sp.val = s.sp.val + 1 := by
  simp [State.push, h]

@[simp] theorem State.pop_sp (s : State) : s.pop.sp.val = s.sp.val - 1 := rfl

/-! ### Reading a register or a key after an update -/

theorem State.readV_writeV (s : State) (x r : RegIdx) (b : Byte) :
    (s.writeV x b).readV r = if x = r then b else s.readV r := by
  simp [State.readV, State.writeV, Vector.getElem_set, Fin.ext_iff]

@[simp] theorem State.readV_writeV_same (s : State) (x : RegIdx) (b : Byte) : (s.writeV x b).readV x = b := by
  simp [State.readV_writeV]

theorem State.readV_loadV (s : State) (bs : List Byte) (r : RegIdx) :
    (s.loadV bs).readV r = bs.getD r.val (s.readV r) := by
  simp [State.readV, State.loadV, loadRegs]

/-- A register reads by the register file alone. -/
theorem State.readV_congr {s t : State} (h : t.v = s.v) (x : RegIdx) : t.readV x = s.readV x := by
  simp [State.readV, h]

/-- A key reads by the keypad alone. -/
theorem State.key_congr {s t : State} (h : t.keypad = s.keypad) (k : Fin 16) : t.key k = s.key k := by
  simp [State.key, h]

@[simp] theorem State.readV_writeI (s : State) (a : Word) (r : RegIdx) : (s.writeI a).readV r = s.readV r := rfl
@[simp] theorem State.readV_writePc (s : State) (t : Word) (r : RegIdx) : (s.writePc t).readV r = s.readV r := rfl
@[simp] theorem State.readV_advance (s : State) (r : RegIdx) : (s.advance).readV r = s.readV r := rfl
@[simp] theorem State.readV_writeDelay (s : State) (b : Byte) (r : RegIdx) : (s.writeDelay b).readV r = s.readV r := rfl
@[simp] theorem State.readV_writeSound (s : State) (b : Byte) (r : RegIdx) : (s.writeSound b).readV r = s.readV r := rfl
@[simp] theorem State.readV_writeMemory (s : State) (m : Memory) (r : RegIdx) : (s.writeMemory m).readV r = s.readV r := rfl
@[simp] theorem State.readV_writePx (s : State) (p : Surface) (r : RegIdx) : (s.writePx p).readV r = s.readV r := rfl
@[simp] theorem State.readV_writeDrawFlag (s : State) (b : Bool) (r : RegIdx) : (s.writeDrawFlag b).readV r = s.readV r := rfl
@[simp] theorem State.readV_pop (s : State) (r : RegIdx) : (s.pop).readV r = s.readV r := rfl
@[simp] theorem State.readV_countRnd (s : State) (r : RegIdx) : (s.countRnd).readV r = s.readV r := rfl
@[simp] theorem State.readV_countDraw (s : State) (r : RegIdx) : (s.countDraw).readV r = s.readV r := rfl
@[simp] theorem State.readV_latchOpcode (s : State) (op : Word) (r : RegIdx) : (s.latchOpcode op).readV r = s.readV r := rfl
@[simp] theorem State.readV_scribbleMemory (s : State) (a n : Nat) (r : RegIdx) : (s.scribbleMemory a n).readV r = s.readV r := rfl
@[simp] theorem State.readV_push (s : State) (a : Word) (r : RegIdx) : (s.push a).readV r = s.readV r := State.readV_congr (by simp) r
@[simp] theorem State.readV_skipIf (s : State) (c : Bool) (r : RegIdx) : (s.skipIf c).readV r = s.readV r := State.readV_congr (by simp) r

@[simp] theorem State.key_writeV (s : State) (x : RegIdx) (b : Byte) (k : Fin 16) : (s.writeV x b).key k = s.key k := State.key_congr (by simp) k
@[simp] theorem State.key_loadV (s : State) (bs : List Byte) (k : Fin 16) : (s.loadV bs).key k = s.key k := State.key_congr (by simp) k
@[simp] theorem State.key_writeI (s : State) (a : Word) (k : Fin 16) : (s.writeI a).key k = s.key k := State.key_congr (by simp) k
@[simp] theorem State.key_writePc (s : State) (t : Word) (k : Fin 16) : (s.writePc t).key k = s.key k := State.key_congr (by simp) k
@[simp] theorem State.key_advance (s : State) (k : Fin 16) : (s.advance).key k = s.key k := State.key_congr (by simp) k
@[simp] theorem State.key_writeDelay (s : State) (b : Byte) (k : Fin 16) : (s.writeDelay b).key k = s.key k := State.key_congr (by simp) k
@[simp] theorem State.key_writeSound (s : State) (b : Byte) (k : Fin 16) : (s.writeSound b).key k = s.key k := State.key_congr (by simp) k
@[simp] theorem State.key_writeMemory (s : State) (m : Memory) (k : Fin 16) : (s.writeMemory m).key k = s.key k := State.key_congr (by simp) k
@[simp] theorem State.key_writePx (s : State) (p : Surface) (k : Fin 16) : (s.writePx p).key k = s.key k := State.key_congr (by simp) k
@[simp] theorem State.key_writeDrawFlag (s : State) (b : Bool) (k : Fin 16) : (s.writeDrawFlag b).key k = s.key k := State.key_congr (by simp) k
@[simp] theorem State.key_pop (s : State) (k : Fin 16) : (s.pop).key k = s.key k := State.key_congr (by simp) k
@[simp] theorem State.key_push (s : State) (a : Word) (k : Fin 16) : (s.push a).key k = s.key k := State.key_congr (by simp) k
@[simp] theorem State.key_skipIf (s : State) (c : Bool) (k : Fin 16) : (s.skipIf c).key k = s.key k := State.key_congr (by simp) k
@[simp] theorem State.key_countRnd (s : State) (k : Fin 16) : (s.countRnd).key k = s.key k := State.key_congr (by simp) k
@[simp] theorem State.key_countDraw (s : State) (k : Fin 16) : (s.countDraw).key k = s.key k := State.key_congr (by simp) k
@[simp] theorem State.key_latchOpcode (s : State) (op : Word) (k : Fin 16) : (s.latchOpcode op).key k = s.key k := State.key_congr (by simp) k
@[simp] theorem State.key_latchResult (s : State) (r : StepResult) (k : Fin 16) : (s.latchResult r).key k = s.key k := State.key_congr (by simp) k
@[simp] theorem State.key_latchHalted (s : State) (e : Error) (k : Fin 16) : (s.latchHalted e).key k = s.key k := State.key_congr (by simp) k
@[simp] theorem State.key_scribbleMemory (s : State) (a n : Nat) (k : Fin 16) : (s.scribbleMemory a n).key k = s.key k := State.key_congr (by simp) k
@[simp] theorem State.key_scribbleV (s : State) (n : Nat) (k : Fin 16) : (s.scribbleV n).key k = s.key k := State.key_congr (by simp) k
@[simp] theorem State.key_scribblePx (s : State) (cells : List Nat) (k : Fin 16) : (s.scribblePx cells).key k = s.key k := State.key_congr (by simp) k
@[simp] theorem State.key_scribbleVf (s : State) (k : Fin 16) : s.scribbleVf.key k = s.key k := State.key_congr rfl k

end Sys2Proof.Machine
end

