-- ==== Sys2Proof/Laws/Display.lean ====
section
/-! SUPPORT. The laws of the pixel surface: reading a cell after a write, and what a blit does to each cell. -/

namespace Sys2Proof.Machine

theorem pixelIndex_lt (x y : Byte) (row col : Nat) : pixelIndex x y row col < 2048 := Nat.mod_lt _ (by decide)

theorem mem_coveredCells {x y : Byte} {n k : Nat} :
    k ∈ coveredCells x y n ↔ ∃ row col, row < n ∧ col < 8 ∧ k = pixelIndex x y row col := by
  simp only [coveredCells, List.mem_flatMap, List.mem_map, List.mem_range]
  constructor
  · rintro ⟨row, h1, col, h2, rfl⟩; exact ⟨row, col, h1, h2, rfl⟩
  · rintro ⟨row, col, h1, h2, rfl⟩; exact ⟨row, h1, col, h2, rfl⟩

/-! ### One cell -/

/-- A cell read after a write to a cell that exists. -/
theorem pxGet_pxSet (px : Surface) {k : Nat} (j : Nat) (b : Bool) (hk : k < 2048) :
    pxGet (pxSet px k b) j = if j = k then b else pxGet px j := by
  have hrow : k / 64 < 32 := by omega
  by_cases hd : j / 64 = k / 64
  · have hr : pxRow (px.setIfInBounds (k / 64)
        (if b then pxRow px k ||| BitVec.twoPow 64 (k % 64) else pxRow px k &&& ~~~(BitVec.twoPow 64 (k % 64)))) j =
        (if b then pxRow px k ||| BitVec.twoPow 64 (k % 64) else pxRow px k &&& ~~~(BitVec.twoPow 64 (k % 64))) := by
      simp [pxRow, Vector.getD, hd, hrow]
    have hp : pxRow px j = pxRow px k := by simp [pxRow, hd]
    have hj : j % 64 < 64 := Nat.mod_lt _ (by decide)
    have he : (j = k) ↔ (j % 64 = k % 64) := by omega
    simp only [pxGet, pxSet, hr, hp, he]
    by_cases h : j % 64 = k % 64 <;> cases b <;> simp [hj, h]
    rw [h] at hj; simp [hj]
  · have hne : j ≠ k := by rintro rfl; exact hd rfl
    have hr : ∀ w, pxRow (px.setIfInBounds (k / 64) w) j = pxRow px j := by
      intro w; simp [pxRow, Vector.getD, Ne.symm hd]
    simp only [pxGet, pxSet, hr, hne, if_false]

theorem pxGet_pxClear (k : Nat) : pxGet pxClear k = false := by
  have h : pxRow pxClear k = 0 := by
    by_cases hk : k / 64 < 32 <;> simp [pxRow, pxClear, Vector.getD, hk]
  simp [pxGet, h]

/-- Cells copied from another surface. -/
theorem pxGet_pxCopy (source : Surface) (cells : List Nat) (px : Surface) (j : Nat) (h : ∀ k ∈ cells, k < 2048) :
    pxGet (pxCopy source cells px) j = if j ∈ cells then pxGet source j else pxGet px j := by
  induction cells generalizing px with
  | nil => simp [pxCopy]
  | cons k rest ih =>
    have hk := h k (by simp)
    have := ih (pxSet px k (pxGet source k)) (fun c hc => h c (by simp [hc]))
    simp only [pxCopy, List.foldl_cons] at this ⊢
    rw [this, pxGet_pxSet _ _ _ hk]
    by_cases hj : j = k
    · subst hj; simp
    · simp [hj]

/-- Two surfaces that agree on every cell are the same. -/
theorem surface_ext {p q : Surface} (h : ∀ k, k < 2048 → pxGet p k = pxGet q k) : p = q := by
  apply Vector.ext
  intro row hrow
  apply BitVec.eq_of_getLsbD_eq
  intro col hcol
  have h1 : (row * 64 + col) / 64 = row := by omega
  have h2 : (row * 64 + col) % 64 = col := by omega
  have := h (row * 64 + col) (by omega)
  simpa [pxGet, pxRow, Vector.getD, h1, h2, hrow] using this

/-! ### Flipping a list of cells -/

/-- Distinct cells flipped one after another: each flips once, and there is a collision when one of them was set. -/
theorem foldl_plot (cells : List Nat) (hn : cells.Nodup) (hlt : ∀ k ∈ cells, k < 2048) (px : Surface) (hit : Bool) :
    (∀ j, pxGet (cells.foldl (fun acc k => plot k acc) (px, hit)).1 j = if j ∈ cells then !pxGet px j else pxGet px j) ∧
      (cells.foldl (fun acc k => plot k acc) (px, hit)).2 = (hit || cells.any (fun k => pxGet px k)) := by
  induction cells generalizing px hit with
  | nil => simp
  | cons k rest ih =>
    obtain ⟨hk, hn⟩ := List.nodup_cons.1 hn
    have hk2 := hlt k (by simp)
    have hp : ∀ j, pxGet (pxSet px k (!pxGet px k)) j = if j = k then !pxGet px k else pxGet px j :=
      fun j => pxGet_pxSet px j _ hk2
    obtain ⟨h1, h2⟩ := ih hn (fun c hc => hlt c (by simp [hc])) (pxSet px k (!pxGet px k)) (hit || pxGet px k)
    have hplot : plot k (px, hit) = (pxSet px k (!pxGet px k), hit || pxGet px k) := rfl
    rw [List.foldl_cons, hplot]
    constructor
    · intro j
      rw [h1, hp]
      by_cases hj : j = k
      · subst hj; simp [hk]
      · simp [hj]
    · rw [h2]
      have : rest.any (fun c => pxGet (pxSet px k (!pxGet px k)) c) = rest.any (fun c => pxGet px c) := by
        rw [Bool.eq_iff_iff]
        simp only [List.any_eq_true]
        refine exists_congr fun c => and_congr_right fun hc => ?_
        rw [hp, if_neg (by rintro rfl; exact hk hc)]
      rw [this]; simp [Bool.or_assoc]

/-! ### The blit -/

/-- The cells a row lights, in ascending order of column. -/
def rowCells (x y : Byte) (row : Nat) (b : Byte) : List Nat :=
  ((List.range 8).filter (spriteBit b)).map (pixelIndex x y row)

/-- The cells the rows from `row` on light. -/
def litCells (x y : Byte) : (row : Nat) → List Byte → List Nat
  | _, [] => []
  | row, b :: bs => rowCells x y row b ++ litCells x y (row + 1) bs

theorem drawRow_eq_foldl (x y : Byte) (row : Nat) (b : Byte) (acc : Surface × Bool) :
    drawRow x y row b acc = (rowCells x y row b).foldl (fun acc k => plot k acc) acc := by
  simp [drawRow, rowCells, List.foldl_map, List.foldl_filter]

theorem drawRows_eq_foldl (x y : Byte) (row : Nat) (bs : List Byte) (acc : Surface × Bool) :
    drawRows x y row bs acc = (litCells x y row bs).foldl (fun acc k => plot k acc) acc := by
  induction bs generalizing row acc with
  | nil => rfl
  | cons b bs ih => simp [drawRows, litCells, ih, drawRow_eq_foldl, List.foldl_append]

theorem mem_rowCells {x y : Byte} {row : Nat} {b : Byte} {k : Nat} :
    k ∈ rowCells x y row b ↔ ∃ col, col < 8 ∧ spriteBit b col = true ∧ k = pixelIndex x y row col := by
  simp only [rowCells, List.mem_map, List.mem_filter, List.mem_range]
  constructor
  · rintro ⟨col, ⟨h1, h2⟩, rfl⟩; exact ⟨col, h1, h2, rfl⟩
  · rintro ⟨col, h1, h2, rfl⟩; exact ⟨col, ⟨h1, h2⟩, rfl⟩

theorem mem_litCells {x y : Byte} {row : Nat} {bs : List Byte} {k : Nat} :
    k ∈ litCells x y row bs ↔
      ∃ d col, d < bs.length ∧ col < 8 ∧ spriteBit (bs.getD d 0) col = true ∧ k = pixelIndex x y (row + d) col := by
  induction bs generalizing row with
  | nil => simp [litCells]
  | cons b bs ih =>
    simp only [litCells, List.mem_append, mem_rowCells, ih, List.length_cons]
    constructor
    · rintro (⟨col, h1, h2, h3⟩ | ⟨d, col, h0, h1, h2, h3⟩)
      · exact ⟨0, col, by omega, h1, by simpa using h2, h3⟩
      · refine ⟨d + 1, col, by omega, h1, by simpa using h2, ?_⟩
        rw [h3, Nat.add_assoc, Nat.add_comm 1]
    · rintro ⟨d, col, h0, h1, h2, h3⟩
      cases d with
      | zero => exact .inl ⟨col, h1, by simpa using h2, h3⟩
      | succ d =>
        refine .inr ⟨d, col, by omega, h1, by simpa using h2, ?_⟩
        rw [h3, Nat.add_assoc, Nat.add_comm 1]

/-- Two bits of one sprite never share a cell (45_display.md R192). -/
theorem pixelIndex_inj {x y : Byte} {r c r' c' : Nat} (hr : r < 31) (hr' : r' < 31) (hc : c < 8) (hc' : c' < 8)
    (h : pixelIndex x y r c = pixelIndex x y r' c') : r = r' ∧ c = c' := by
  simp only [pixelIndex] at h
  omega

theorem litCells_nodup (x y : Byte) (row : Nat) (bs : List Byte) (h : row + bs.length ≤ 31) :
    (litCells x y row bs).Nodup := by
  induction bs generalizing row with
  | nil => simp [litCells]
  | cons b bs ih =>
    simp only [List.length_cons] at h
    refine List.nodup_append.2 ⟨?_, ih (row + 1) (by omega), ?_⟩
    · refine List.Nodup.map_on ?_ (List.nodup_range.filter _)
      intro c hc c' hc' he
      simp only [List.mem_filter, List.mem_range] at hc hc'
      exact (pixelIndex_inj (by omega) (by omega) hc.1 hc'.1 he).2
    · intro k hk k' hk' he
      obtain ⟨c, h1, -, rfl⟩ := mem_rowCells.1 hk
      obtain ⟨d, c', h0, h1', -, rfl⟩ := mem_litCells.1 hk'
      have := (pixelIndex_inj (by omega) (by omega) h1 h1' he).1
      omega

/-- What a blit of at most 31 rows does: the cells it lights flip and no other, and there is a collision when one of them was
set. -/
theorem blit_spec (x y : Byte) (sprite : List Byte) (px : Surface) (h : sprite.length ≤ 31) :
    (∀ j, pxGet (blit x y sprite px).1 j = if j ∈ litCells x y 0 sprite then !pxGet px j else pxGet px j) ∧
      (blit x y sprite px).2 = (litCells x y 0 sprite).any (fun k => pxGet px k) := by
  have hlt : ∀ k ∈ litCells x y 0 sprite, k < 2048 := by
    intro k hk
    obtain ⟨d, c, -, -, -, rfl⟩ := mem_litCells.1 hk
    exact pixelIndex_lt ..
  have := foldl_plot _ (litCells_nodup x y 0 sprite (by omega)) hlt px false
  simpa [blit, drawRows_eq_foldl] using this

end Sys2Proof.Machine
end

