-- ==== Sys2Proof/Laws/Encode.lean ====
section
/-! SUPPORT. The laws of the encoder: each bit of a word of each format (30_encoding.md R91), and each field of a word read
back. -/

namespace Sys2Proof

/-! ### Bits of a word -/

theorem getLsbD_formatA (family : BitVec 4) (nnn : Addr12) (j : Nat) :
    (formatA family nnn).getLsbD j = if j < 12 then nnn.getLsbD j else family.getLsbD (j - 12) := by
  have h := BitVec.getLsbD_append (x := family) (y := nnn) (i := j)
  exact h.trans (by cases decide (j < 12) <;> simp)

theorem getLsbD_formatXI (family : BitVec 4) (x : RegIdx) (nn : Byte) (j : Nat) :
    (formatXI family x nn).getLsbD j =
      if j < 8 then nn.getLsbD j else if j < 12 then (regBits x).getLsbD (j - 8) else family.getLsbD (j - 12) := by
  have h := BitVec.getLsbD_append (x := family ++ regBits x) (y := nn) (i := j)
  have h' := BitVec.getLsbD_append (x := family) (y := regBits x) (i := j - 8)
  refine h.trans ?_
  rw [h']
  by_cases h1 : j < 8
  · simp [h1]
  · by_cases h2 : j < 12
    · rw [if_neg h1, if_neg h1, if_pos h2, if_pos (by omega)]
    · rw [if_neg h1, if_neg h1, if_neg h2, if_neg (by omega)]; congr 1

theorem getLsbD_formatXK (family : BitVec 4) (x : RegIdx) (fixed : Byte) (j : Nat) :
    (formatXK family x fixed).getLsbD j =
      if j < 8 then fixed.getLsbD j else if j < 12 then (regBits x).getLsbD (j - 8) else family.getLsbD (j - 12) :=
  getLsbD_formatXI family x fixed j

theorem getLsbD_formatXY (family : BitVec 4) (x y : RegIdx) (sub : BitVec 4) (j : Nat) :
    (formatXY family x y sub).getLsbD j =
      if j < 4 then sub.getLsbD j else if j < 8 then (regBits y).getLsbD (j - 4)
      else if j < 12 then (regBits x).getLsbD (j - 8) else family.getLsbD (j - 12) := by
  have h := BitVec.getLsbD_append (x := family ++ regBits x ++ regBits y) (y := sub) (i := j)
  have h' := BitVec.getLsbD_append (x := family ++ regBits x) (y := regBits y) (i := j - 4)
  have h'' := BitVec.getLsbD_append (x := family) (y := regBits x) (i := j - 4 - 4)
  refine h.trans ?_
  rw [h', h'']
  by_cases h1 : j < 4
  · simp [h1]
  · by_cases h2 : j < 8
    · rw [if_neg h1, if_neg h1, if_pos h2, if_pos (by omega)]
    · by_cases h3 : j < 12
      · rw [if_neg h1, if_neg h1, if_neg h2, if_neg (by omega), if_pos h3, if_pos (by omega)]; congr 1
      · rw [if_neg h1, if_neg h1, if_neg h2, if_neg (by omega), if_neg h3, if_neg (by omega)]; congr 1

/-! ### Register indices as fields -/

@[simp] theorem toFin_regBits (x : RegIdx) : (regBits x).toFin = x := by
  apply Fin.ext; simp [regBits]

/-! ### What the mask of a row keeps of a word of each format -/

theorem formatA_row (family : BitVec 4) (nnn : Addr12) :
    formatA family nnn &&& 0xF000 = family.setWidth 16 <<< 12 := by
  apply BitVec.eq_of_getLsbD_eq
  intro j hj
  rw [BitVec.getLsbD_and, getLsbD_formatA]
  interval_cases j <;> simp

theorem formatXI_row (family : BitVec 4) (x : RegIdx) (nn : Byte) :
    formatXI family x nn &&& 0xF000 = family.setWidth 16 <<< 12 := by
  apply BitVec.eq_of_getLsbD_eq
  intro j hj
  rw [BitVec.getLsbD_and, getLsbD_formatXI]
  interval_cases j <;> simp

theorem formatXY_row (family : BitVec 4) (x y : RegIdx) (sub : BitVec 4) :
    formatXY family x y sub &&& 0xF000 = family.setWidth 16 <<< 12 := by
  apply BitVec.eq_of_getLsbD_eq
  intro j hj
  rw [BitVec.getLsbD_and, getLsbD_formatXY]
  interval_cases j <;> simp

theorem formatXY_subrow (family : BitVec 4) (x y : RegIdx) (sub : BitVec 4) :
    formatXY family x y sub &&& 0xF00F = family.setWidth 16 <<< 12 ||| sub.setWidth 16 := by
  apply BitVec.eq_of_getLsbD_eq
  intro j hj
  rw [BitVec.getLsbD_and, getLsbD_formatXY]
  interval_cases j <;> simp

theorem formatXK_row (family : BitVec 4) (x : RegIdx) (fixed : Byte) :
    formatXK family x fixed &&& 0xF0FF = family.setWidth 16 <<< 12 ||| fixed.setWidth 16 := by
  apply BitVec.eq_of_getLsbD_eq
  intro j hj
  rw [BitVec.getLsbD_and, getLsbD_formatXK]
  interval_cases j <;> simp

end Sys2Proof
end

