-- ==== Sys2Proof/Laws/Exec.lean ====
section
/-! SUPPORT. Each arm of the dispatch as an equation, so that no proof unfolds the whole of `exec`. -/

namespace Sys2Proof.Machine

@[simp] theorem exec_cls (s : State) : exec .cls s = execCls s := rfl
@[simp] theorem exec_ret (s : State) : exec .ret s = execRet s := rfl
@[simp] theorem exec_jp (nnn : Addr12) (s : State) : exec (.jp nnn) s = execJp nnn s := rfl
@[simp] theorem exec_call (nnn : Addr12) (s : State) : exec (.call nnn) s = execCall nnn s := rfl
@[simp] theorem exec_sei (x : RegIdx) (nn : Byte) (s : State) : exec (.sei x nn) s = execSei x nn s := rfl
@[simp] theorem exec_snei (x : RegIdx) (nn : Byte) (s : State) : exec (.snei x nn) s = execSnei x nn s := rfl
@[simp] theorem exec_ser (x : RegIdx) (y : RegIdx) (s : State) : exec (.ser x y) s = execSer x y s := rfl
@[simp] theorem exec_ldi (x : RegIdx) (nn : Byte) (s : State) : exec (.ldi x nn) s = execLdi x nn s := rfl
@[simp] theorem exec_addi (x : RegIdx) (nn : Byte) (s : State) : exec (.addi x nn) s = execAddi x nn s := rfl
@[simp] theorem exec_mov (x : RegIdx) (y : RegIdx) (s : State) : exec (.mov x y) s = execMov x y s := rfl
@[simp] theorem exec_or (x : RegIdx) (y : RegIdx) (s : State) : exec (.or x y) s = execOr x y s := rfl
@[simp] theorem exec_and (x : RegIdx) (y : RegIdx) (s : State) : exec (.and x y) s = execAnd x y s := rfl
@[simp] theorem exec_xor (x : RegIdx) (y : RegIdx) (s : State) : exec (.xor x y) s = execXor x y s := rfl
@[simp] theorem exec_add (x : RegIdx) (y : RegIdx) (s : State) : exec (.add x y) s = execAdd x y s := rfl
@[simp] theorem exec_sub (x : RegIdx) (y : RegIdx) (s : State) : exec (.sub x y) s = execSub x y s := rfl
@[simp] theorem exec_shr (x : RegIdx) (y : RegIdx) (s : State) : exec (.shr x y) s = execShr x y s := rfl
@[simp] theorem exec_subn (x : RegIdx) (y : RegIdx) (s : State) : exec (.subn x y) s = execSubn x y s := rfl
@[simp] theorem exec_shl (x : RegIdx) (y : RegIdx) (s : State) : exec (.shl x y) s = execShl x y s := rfl
@[simp] theorem exec_sner (x : RegIdx) (y : RegIdx) (s : State) : exec (.sner x y) s = execSner x y s := rfl
@[simp] theorem exec_lda (nnn : Addr12) (s : State) : exec (.lda nnn) s = execLda nnn s := rfl
@[simp] theorem exec_jpv0 (nnn : Addr12) (s : State) : exec (.jpv0 nnn) s = execJpv0 nnn s := rfl
@[simp] theorem exec_rnd (x : RegIdx) (nn : Byte) (s : State) : exec (.rnd x nn) s = execRnd x nn s := rfl
@[simp] theorem exec_drw (x : RegIdx) (y : RegIdx) (n : Nat) (s : State) : exec (.drw x y n) s = execDrw x y n s := rfl
@[simp] theorem exec_skp (x : RegIdx) (s : State) : exec (.skp x) s = execSkp x s := rfl
@[simp] theorem exec_sknp (x : RegIdx) (s : State) : exec (.sknp x) s = execSknp x s := rfl
@[simp] theorem exec_lddt (x : RegIdx) (s : State) : exec (.lddt x) s = execLddt x s := rfl
@[simp] theorem exec_ldk (x : RegIdx) (s : State) : exec (.ldk x) s = execLdk x s := rfl
@[simp] theorem exec_stdt (x : RegIdx) (s : State) : exec (.stdt x) s = execStdt x s := rfl
@[simp] theorem exec_stst (x : RegIdx) (s : State) : exec (.stst x) s = execStst x s := rfl
@[simp] theorem exec_adda (x : RegIdx) (s : State) : exec (.adda x) s = execAdda x s := rfl
@[simp] theorem exec_ldf (x : RegIdx) (s : State) : exec (.ldf x) s = execLdf x s := rfl
@[simp] theorem exec_bcd (x : RegIdx) (s : State) : exec (.bcd x) s = execBcd x s := rfl
@[simp] theorem exec_stm (x : RegIdx) (s : State) : exec (.stm x) s = execStm x s := rfl
@[simp] theorem exec_ldm (x : RegIdx) (s : State) : exec (.ldm x) s = execLdm x s := rfl

end Sys2Proof.Machine
end

