-- ==== Sys2Proof/Laws/Memory.lean ====
section
/-! SUPPORT. The laws of memory: a read after a write, the canonical form kept by every operation, and one lemma per
multi-byte access that says all it can do. -/

namespace Sys2Proof.Machine

/-! ### One byte -/

/-- The list with a pair put in: its byte at its address, the old byte everywhere else. -/
theorem Memory.read_insert (m : Memory) (a k : Nat) (b : Byte) :
    (Memory.insert m a b).read k = if k = a then b else m.read k := by
  induction m with
  | nil => simp [Memory.insert, Memory.read, eq_comm]
  | cons c rest ih =>
    obtain ⟨j, d⟩ := c
    simp only [Memory.insert]
    split
    · simp only [Memory.read, eq_comm]
    · split
      · subst_vars
        simp only [Memory.read]
        by_cases h : j = k
        · simp [h]
        · rw [if_neg h, if_neg h, if_neg (Ne.symm h)]
      · by_cases h : j = k
        · subst h; simp only [Memory.read, if_true]; rw [if_neg (by omega)]
        · simp only [Memory.read, h, if_false, ih]

/-- Erasing an address makes it hold its reset contents again. -/
theorem Memory.read_erase (m : Memory) (a k : Nat) :
    (Memory.erase m a).read k = if k = a then Memory.unlisted a else m.read k := by
  induction m with
  | nil => by_cases h : k = a <;> simp [Memory.erase, Memory.read, h]
  | cons c rest ih =>
    obtain ⟨j, d⟩ := c
    simp only [Memory.erase]
    split
    · rw [ih]; simp only [Memory.read]; split <;> simp_all
      intro h; omega
    · simp only [Memory.read, ih]; split <;> split <;> simp_all

/-- A read after a write: the byte written at its address, the old byte everywhere else. -/
theorem Memory.read_write (m : Memory) (a k : Nat) (b : Byte) :
    (m.write a b).read k = if k = a then b else m.read k := by
  unfold Memory.write
  split
  · rw [Memory.read_erase]; simp_all
  · exact Memory.read_insert m a k b

@[simp] theorem Memory.read_write_same (m : Memory) (a : Nat) (b : Byte) : (m.write a b).read a = b := by
  simp [Memory.read_write]

/-! ### The canonical form -/

theorem Memory.mem_insert {m : Memory} {a : Nat} {b : Byte} {c : Host.Cell} (h : c ∈ Memory.insert m a b) :
    c = (a, b) ∨ c ∈ m := by
  induction m with
  | nil => simpa [Memory.insert] using h
  | cons d rest ih =>
    obtain ⟨j, e⟩ := d
    simp only [Memory.insert] at h
    split at h
    · simpa using h
    · split at h
      · simp only [List.mem_cons] at h ⊢; tauto
      · simp only [List.mem_cons] at h ⊢
        rcases h with h | h
        · exact .inr (.inl h)
        · rcases ih h with h | h <;> tauto

theorem Memory.mem_erase {m : Memory} {a : Nat} {c : Host.Cell} (h : c ∈ Memory.erase m a) : c ∈ m := by
  induction m with
  | nil => exact absurd h (by simp [Memory.erase])
  | cons d rest ih =>
    obtain ⟨j, e⟩ := d
    simp only [Memory.erase] at h
    split at h
    · exact List.mem_cons_of_mem _ (ih h)
    · simp only [List.mem_cons] at h ⊢
      exact h.imp_right ih

theorem Memory.pairwise_insert {m : Memory} (a : Nat) (b : Byte) (h : m.Pairwise (fun c d => c.1 < d.1)) :
    (Memory.insert m a b).Pairwise (fun c d => c.1 < d.1) := by
  induction m with
  | nil => simp [Memory.insert]
  | cons d rest ih =>
    obtain ⟨j, e⟩ := d
    rw [List.pairwise_cons] at h
    simp only [Memory.insert]
    split
    · rename_i hlt
      refine List.pairwise_cons.2 ⟨fun c hc => ?_, List.pairwise_cons.2 h⟩
      rcases List.mem_cons.1 hc with rfl | hc
      · exact hlt
      · exact Nat.lt_trans hlt (h.1 c hc)
    · split
      · subst_vars; exact List.pairwise_cons.2 ⟨fun c hc => h.1 c hc, h.2⟩
      · refine List.pairwise_cons.2 ⟨fun c hc => ?_, ih h.2⟩
        rcases Memory.mem_insert hc with rfl | hc
        · show j < a; omega
        · exact h.1 c hc

theorem Memory.pairwise_erase {m : Memory} (a : Nat) (h : m.Pairwise (fun c d => c.1 < d.1)) :
    (Memory.erase m a).Pairwise (fun c d => c.1 < d.1) := by
  induction m with
  | nil => simp [Memory.erase]
  | cons d rest ih =>
    obtain ⟨j, e⟩ := d
    rw [List.pairwise_cons] at h
    simp only [Memory.erase]
    split
    · exact ih h.2
    · exact List.pairwise_cons.2 ⟨fun c hc => h.1 c (Memory.mem_erase hc), ih h.2⟩

/-- Writing a byte at an address that exists keeps the canonical form. -/
theorem Memory.wf_write {m : Memory} {a : Nat} (b : Byte) (ha : a ≤ 0xFFF) (h : m.wf) : (m.write a b).wf := by
  unfold Memory.write
  split
  · exact ⟨Memory.pairwise_erase a h.1, fun c hc => h.2 c (Memory.mem_erase hc)⟩
  · rename_i hb
    refine ⟨Memory.pairwise_insert a b h.1, fun c hc => ?_⟩
    rcases Memory.mem_insert hc with rfl | hc
    · exact ⟨Nat.lt_succ_of_le ha, hb⟩
    · exact h.2 c hc

/-- Reset memory lists nothing. -/
theorem Memory.wf_reset : State.reset.memory.wf := by decide

/-! ### Several bytes -/

/-- What `readBytes` answers: every address in range and the bytes there, in order, or the first address above 0xFFF. -/
theorem readBytes_ok {m : Memory} {addr count : Nat} (h : count = 0 ∨ addr + count ≤ 0x1000) :
    readBytes m addr count = .ok ((List.range count).map fun k => m.read (addr + k)) := by
  induction count generalizing addr with
  | zero => rfl
  | succ n ih =>
    have ha : addr ≤ 0xFFF := by omega
    have := ih (addr := addr + 1) (by omega)
    simp only [readBytes, memRead, ha, if_true, this]
    simp [List.range_succ_eq_map, Function.comp_def, Nat.add_assoc, Nat.add_comm 1]

theorem readBytes_error {m : Memory} {addr count : Nat} (hc : 0 < count) (h : 0x1000 < addr + count) :
    readBytes m addr count = .error (.outOfBoundsAccess (max addr 0x1000)) := by
  induction count generalizing addr with
  | zero => omega
  | succ n ih =>
    by_cases ha : addr ≤ 0xFFF
    · have hn := ih (addr := addr + 1) (by omega) (by omega)
      simp only [readBytes, memRead, ha, if_true, hn]
      congr 2; omega
    · simp only [readBytes, memRead, ha, if_false]
      congr 2; omega

/-- What `writeBytes` answers when every address is in range: a memory in which exactly those bytes are replaced, in
canonical form if it was. -/
theorem writeBytes_ok {m : Memory} {addr : Nat} {bs : List Byte} (h : bs = [] ∨ addr + bs.length ≤ 0x1000) :
    ∃ m', writeBytes m addr bs = .ok m' ∧ (m.wf → m'.wf) ∧
      ∀ k, m'.read k = if addr ≤ k ∧ k < addr + bs.length then bs.getD (k - addr) 0 else m.read k := by
  induction bs generalizing m addr with
  | nil => exact ⟨m, rfl, id, fun k => (if_neg (by simp)).symm⟩
  | cons b bs ih =>
    have hl : addr + (bs.length + 1) ≤ 0x1000 := by simpa using h
    have ha : addr ≤ 0xFFF := by omega
    obtain ⟨m', h1, h2, h3⟩ := ih (m := m.write addr b) (addr := addr + 1) (.inr (by omega))
    refine ⟨m', by simp only [writeBytes, memWrite, ha, if_true, h1], fun hm => h2 (Memory.wf_write b ha hm), fun k => ?_⟩
    rw [h3, Memory.read_write]
    simp only [List.length_cons]
    rcases Nat.lt_trichotomy k addr with hk | hk | hk
    · rw [if_neg (by omega), if_neg (by omega), if_neg (by omega)]
    · subst hk; rw [if_neg (by omega), if_pos rfl, if_pos (by omega)]; simp
    · obtain ⟨d, rfl⟩ : ∃ d, k = addr + 1 + d := ⟨k - addr - 1, by omega⟩
      have e1 : addr + 1 + d - (addr + 1) = d := by omega
      have e2 : addr + 1 + d - addr = d + 1 := by omega
      simp only [e1, e2, List.getD_cons_succ]
      by_cases hd : d < bs.length
      · rw [if_pos (by omega), if_pos (by omega)]
      · rw [if_neg (by omega), if_neg (by omega), if_neg (by omega)]

theorem writeBytes_error {m : Memory} {addr : Nat} {bs : List Byte} (hb : bs ≠ []) (h : 0x1000 < addr + bs.length) :
    writeBytes m addr bs = .error (.outOfBoundsAccess (max addr 0x1000)) := by
  induction bs generalizing m addr with
  | nil => exact absurd rfl hb
  | cons b bs ih =>
    simp only [List.length_cons] at h
    by_cases ha : addr ≤ 0xFFF
    · have hne : bs ≠ [] := by rintro rfl; simp at h; omega
      simp only [writeBytes, memWrite, ha, if_true]
      rw [ih hne (by omega)]
      congr 2; omega
    · simp only [writeBytes, memWrite, ha, if_false]
      congr 2; omega

/-- What a faulted store leaves: canonical form if it was, and every byte as it was but those it covers that are in range. -/
theorem scribbleBytes_spec (m : Memory) (draw addr count : Nat) :
    (m.wf → (scribbleBytes m draw addr count).wf) ∧
      ∀ k, ¬ (addr ≤ k ∧ k < addr + count ∧ k ≤ 0xFFF) → (scribbleBytes m draw addr count).read k = m.read k := by
  induction count with
  | zero => exact ⟨id, fun _ _ => rfl⟩
  | succ n ih =>
    simp only [scribbleBytes]
    split
    · rename_i ha
      refine ⟨fun hm => Memory.wf_write _ ha (ih.1 hm), fun k hk => ?_⟩
      rw [Memory.read_write, if_neg (by omega), ih.2 k (by omega)]
    · exact ⟨ih.1, fun k hk => ih.2 k (by omega)⟩

/-- Bytes placed in memory: canonical form if it was, and exactly those bytes replaced. -/
theorem Memory.place_spec (m : Memory) (addr : Nat) (bs : List Byte) (h : addr + bs.length ≤ 0x1000) :
    (m.wf → (m.place addr bs).wf) ∧
      ∀ k, (m.place addr bs).read k = if addr ≤ k ∧ k < addr + bs.length then bs.getD (k - addr) 0 else m.read k := by
  induction bs generalizing m addr with
  | nil => exact ⟨id, fun k => (if_neg (by simp)).symm⟩
  | cons b bs ih =>
    simp only [List.length_cons] at h
    obtain ⟨h2, h3⟩ := ih (m.write addr b) (addr + 1) (by omega)
    refine ⟨fun hm => h2 (Memory.wf_write b (by omega) hm), fun k => ?_⟩
    simp only [Memory.place]
    rw [h3, Memory.read_write]
    simp only [List.length_cons]
    rcases Nat.lt_trichotomy k addr with hk | hk | hk
    · rw [if_neg (by omega), if_neg (by omega), if_neg (by omega)]
    · subst hk; rw [if_neg (by omega), if_pos rfl, if_pos (by omega)]; simp
    · obtain ⟨d, rfl⟩ : ∃ d, k = addr + 1 + d := ⟨k - addr - 1, by omega⟩
      have e1 : addr + 1 + d - (addr + 1) = d := by omega
      have e2 : addr + 1 + d - addr = d + 1 := by omega
      simp only [e1, e2, List.getD_cons_succ]
      by_cases hd : d < bs.length
      · rw [if_pos (by omega), if_pos (by omega)]
      · rw [if_neg (by omega), if_neg (by omega), if_neg (by omega)]

end Sys2Proof.Machine
end

