-- ==== Sys2Proof/Laws/Ops.lean ====
section
/-! SUPPORT. One lemma per shared operation that says all it can do: registers written in pairs, stores and loads at I, the
key choice, the stack. -/

namespace Sys2Proof.Machine

/-! ### The ends of a step -/

@[simp] theorem finish_eq (s : State) : finish s = .next (s.latchResult .ok) := rfl

@[simp] theorem pend_eq (s : State) : pend s = .next (s.latchResult .pending) := rfl

@[simp] theorem raise_eq (e : Error) (s : State) : raise e s = .next ((s.latchHalted e).latchResult (.err e)) := rfl

@[simp] theorem State.ea_eq (s : State) (k : Nat) : s.ea k = s.i.toNat + k := rfl

@[simp] theorem State.firstAccessOk_eq (s : State) : s.firstAccessOk = decide (s.i.toNat ≤ 0xFFF) := rfl

/-! ### Immediates and flags -/

@[simp] theorem zextAddr_toNat (nnn : Addr12) : (zextAddr nnn).toNat = nnn.toNat := by
  simp [zextAddr]; omega

@[simp] theorem zextByte_toNat (b : Byte) : (zextByte b).toNat = b.toNat := by
  simp [zextByte]; omega

@[simp] theorem glyphAddr_toNat (b : Byte) : (glyphAddr b).toNat = 5 * b.toNat := by
  simp [glyphAddr, BitVec.toNat_mul]; omega

@[simp] theorem flagByte_toNat (c : Bool) : (flagByte c).toNat = if c then 1 else 0 := by
  cases c <;> rfl

/-- A flag is 0 or 1. -/
theorem flagByte_eq (c : Bool) : flagByte c = 0 ∨ flagByte c = 1 := by cases c <;> simp [flagByte]

@[simp] theorem lowBitFlag_toNat (a : Byte) : (lowBitFlag a).toNat = a.toNat % 2 := by
  simp [lowBitFlag]

theorem highBitFlag_toNat (a : Byte) : (highBitFlag a).toNat = a.toNat / 128 := by
  revert a; decide

/-! ### Registers -/

/-- The registers after the two statements of a flag-writing ALU instruction. -/
theorem State.readV_flagThenResult (s : State) (flag result : Byte → Byte → Byte) (x y r : RegIdx) :
    let c := flag (s.readV x) (s.readV y)
    let v1 (r : RegIdx) : Byte := if r = regVF then c else s.readV r
    (s.flagThenResult flag result x y).readV r = if r = x then result (v1 x) (v1 y) else v1 r := by
  simp only [State.flagThenResult, State.readV_writeV, eq_comm]

/-- The two statements change nothing but the register file. -/
theorem State.flagThenResult_eq (s : State) (flag result : Byte → Byte → Byte) (x y : RegIdx) :
    s.flagThenResult flag result x y = { s with v := (s.flagThenResult flag result x y).v } := rfl

/-! ### The keypad and the free choice of a key -/

theorem State.mem_pressedKeys (s : State) (k : Fin 16) : k ∈ s.pressedKeys ↔ s.key k = true := by
  simp [State.pressedKeys]

/-- The key picked is one of the list. -/
theorem pickKey_mem (draw : Nat) (k : Fin 16) (rest : List (Fin 16)) : pickKey draw k rest ∈ k :: rest := by
  cases rest with
  | nil => simp [pickKey]
  | cons j rest =>
    simp only [pickKey]
    have h : Config.keyChoice draw % ((j :: rest).length + 1) < (k :: j :: rest).length :=
      Nat.mod_lt _ (Nat.succ_pos _)
    rw [List.getD_eq_getElem _ _ h]
    exact List.getElem_mem h

/-- The key number a register names. -/
theorem keyOf_eq_some {b : Byte} {k : Fin 16} (h : b.toNat = k.val) : keyOf b = some k := by
  simp [keyOf, h]

theorem keyOf_eq_none {b : Byte} (h : 15 < b.toNat) : keyOf b = none := by
  simp [keyOf]; omega

/-- A key skip whose register names a key. -/
theorem State.skipOnKey_key (s : State) (x : RegIdx) (pressed : Bool) (k : Fin 16) (h : (s.readV x).toNat = k.val) :
    s.skipOnKey x pressed = .next ((s.skipIf (s.key k == pressed)).latchResult .ok) := by
  simp [State.skipOnKey, keyOf_eq_some h]

/-- A key skip whose register names no key. -/
theorem State.skipOnKey_error (s : State) (x : RegIdx) (pressed : Bool) (h : 15 < (s.readV x).toNat) :
    let e := Error.outOfBoundsAccess (s.readV x).toNat
    s.skipOnKey x pressed = .next ((s.latchHalted e).latchResult (.err e)) := by
  simp [State.skipOnKey, keyOf_eq_none h]

/-! ### Stores and loads at I -/

/-- A store at I whose bytes are all in range. -/
theorem State.storeAtI_ok (s : State) (bs : List Byte) (h : bs = [] ∨ s.i.toNat + bs.length ≤ 0x1000) :
    ∃ m, s.storeAtI bs = .next ((s.writeMemory m).advance.latchResult .ok) ∧ (s.memory.wf → m.wf) ∧
      ∀ k, m.read k = if s.i.toNat ≤ k ∧ k < s.i.toNat + bs.length then bs.getD (k - s.i.toNat) 0 else s.memory.read k := by
  obtain ⟨m, h1, h2, h3⟩ := writeBytes_ok (m := s.memory) (addr := s.i.toNat) h
  exact ⟨m, by simp [State.storeAtI, h1], h2, h3⟩

/-- A store that fails after its first byte: what it leaves is `scribbleMemory`. -/
theorem State.storeAtI_mid (s : State) (bs : List Byte) (hi : s.i.toNat ≤ 0xFFF) (h : 0x1000 < s.i.toNat + bs.length) :
    let e := Error.outOfBoundsAccess 0x1000
    s.storeAtI bs = .next (((s.scribbleMemory s.i.toNat bs.length).latchHalted e).latchResult (.err e)) := by
  have h1 := writeBytes_error (m := s.memory) (addr := s.i.toNat) (bs := bs) (by rintro rfl; simp at h; omega) h
  rw [Nat.max_eq_right (by omega)] at h1
  simp [State.storeAtI, h1, hi]

/-- A store whose first byte is out of range: nothing is written. -/
theorem State.storeAtI_first (s : State) (bs : List Byte) (hb : bs ≠ []) (hi : 0xFFF < s.i.toNat) :
    let e := Error.outOfBoundsAccess s.i.toNat
    s.storeAtI bs = .next ((s.latchHalted e).latchResult (.err e)) := by
  have h1 := writeBytes_error (m := s.memory) (addr := s.i.toNat) hb (by have := List.length_pos_iff.2 hb; omega)
  rw [Nat.max_eq_left (by omega)] at h1
  simp [State.storeAtI, h1, Nat.not_le.2 hi]

@[simp] theorem decimalDigits_length (b : Byte) : (decimalDigits b).length = 3 := rfl

@[simp] theorem State.firstRegs_length (s : State) (x : RegIdx) : (s.firstRegs x).length = x.val + 1 := by
  simp [State.firstRegs]

/-- The register stored at an offset. -/
theorem State.firstRegs_getD (s : State) (x r : RegIdx) (h : r ≤ x) : (s.firstRegs x).getD r.val 0 = s.readV r := by
  have hr : r.val < x.val + 1 := Nat.lt_succ_of_le h
  have h1 : r.val < (s.firstRegs x).length := by simpa using hr
  rw [List.getD_eq_getElem _ _ h1]
  simp [State.firstRegs, State.readV]

/-- FX65 with every byte in range. -/
theorem execLdm_ok (s : State) (x : RegIdx) (h : s.i.toNat + x.val ≤ 0xFFF) :
    execLdm x s = .next ((s.loadV ((List.range (x.val + 1)).map fun k => s.memory.read (s.i.toNat + k))).advance.latchResult .ok) := by
  have h1 := readBytes_ok (m := s.memory) (addr := s.i.toNat) (count := x.val + 1) (.inr (by omega))
  simp [execLdm, regCount, h1]

/-- FX65 that fails after its first byte. -/
theorem execLdm_mid (s : State) (x : RegIdx) (hi : s.i.toNat ≤ 0xFFF) (h : 0xFFF < s.i.toNat + x.val) :
    let e := Error.outOfBoundsAccess 0x1000
    execLdm x s = .next (((s.scribbleV (x.val + 1)).latchHalted e).latchResult (.err e)) := by
  have h1 := readBytes_error (m := s.memory) (addr := s.i.toNat) (count := x.val + 1) (by omega) (by omega)
  rw [Nat.max_eq_right (by omega)] at h1
  simp [execLdm, regCount, h1, hi]

/-- FX65 whose first byte is out of range: no register is loaded. -/
theorem execLdm_first (s : State) (x : RegIdx) (hi : 0xFFF < s.i.toNat) :
    let e := Error.outOfBoundsAccess s.i.toNat
    execLdm x s = .next ((s.latchHalted e).latchResult (.err e)) := by
  have h1 := readBytes_error (m := s.memory) (addr := s.i.toNat) (count := x.val + 1) (by omega) (by omega)
  rw [Nat.max_eq_left (by omega)] at h1
  simp [execLdm, regCount, h1, Nat.not_le.2 hi]

/-! ### Draws at I -/

/-- DXYN with every row in range. -/
theorem execDrw_ok (s : State) (x y : RegIdx) (n : Nat) (h : n = 0 ∨ s.i.toNat + n ≤ 0x1000) :
    let drawn := blit (s.readV x) (s.readV y) ((List.range n).map fun k => s.memory.read (s.i.toNat + k)) s.px
    execDrw x y n s =
      .next ((((s.writePx drawn.1).writeV regVF (flagByte drawn.2)).writeDrawFlag true).advance.latchResult .ok) := by
  simp [execDrw, readBytes_ok (m := s.memory) h]

/-- DXYN that fails after its first row. -/
theorem execDrw_mid (s : State) (x y : RegIdx) (n : Nat) (hi : s.i.toNat ≤ 0xFFF) (h : 0x1000 < s.i.toNat + n) :
    let e := Error.outOfBoundsAccess 0x1000
    execDrw x y n s =
      .next (((s.scribblePx (coveredCells (s.readV x) (s.readV y) n)).latchHalted e).latchResult (.err e)) := by
  have h1 := readBytes_error (m := s.memory) (addr := s.i.toNat) (count := n) (by omega) h
  rw [Nat.max_eq_right (by omega)] at h1
  simp [execDrw, h1, hi]

/-- DXYN whose first row is out of range: no cell is drawn, and draw_flag is not set. -/
theorem execDrw_first (s : State) (x y : RegIdx) (n : Nat) (hn : 0 < n) (hi : 0xFFF < s.i.toNat) :
    let e := Error.outOfBoundsAccess s.i.toNat
    execDrw x y n s = .next ((s.scribbleVf.latchHalted e).latchResult (.err e)) := by
  have h1 := readBytes_error (m := s.memory) (addr := s.i.toNat) (count := n) hn (by omega)
  rw [Nat.max_eq_left (by omega)] at h1
  simp [execDrw, h1, Nat.not_le.2 hi]

/-! ### The stack -/

/-- The entry on top, after the decrement. -/
theorem State.topEntry_pop (s : State) (k : Fin 16) (h : k.val + 1 = s.sp.val) : s.pop.topEntry = s.stack[k] := by
  have h1 : s.sp.val - 1 = k.val := by omega
  simp [State.topEntry, h1, Vector.getD]

end Sys2Proof.Machine
end

