-- ==== Sys2Proof/Laws/PerInstr.lean ====
section
/-! SUPPORT. The family `EncodesInRow`, one lemma per instruction: its canonical word lies in its own row of the opcode map
(30_encoding.md R96). -/

namespace Sys2Proof.Laws

/-- The canonical word of the instruction, under the mask of its row, is the match of its row. -/
def EncodesInRow.Statement (i : Instr) : Prop := encode i &&& (opcodeRow i).mask = (opcodeRow i).pattern

/-! ### The instructions -/

theorem EncodesInRow.cls : EncodesInRow.Statement .cls := rfl
theorem EncodesInRow.ret : EncodesInRow.Statement .ret := rfl
theorem EncodesInRow.jp (nnn : Addr12) : EncodesInRow.Statement (.jp nnn) := formatA_row _ nnn
theorem EncodesInRow.call (nnn : Addr12) : EncodesInRow.Statement (.call nnn) := formatA_row _ nnn
theorem EncodesInRow.sei (x : RegIdx) (nn : Byte) : EncodesInRow.Statement (.sei x nn) := formatXI_row _ x nn
theorem EncodesInRow.snei (x : RegIdx) (nn : Byte) : EncodesInRow.Statement (.snei x nn) := formatXI_row _ x nn
theorem EncodesInRow.ser (x : RegIdx) (y : RegIdx) : EncodesInRow.Statement (.ser x y) := formatXY_row _ x y _
theorem EncodesInRow.ldi (x : RegIdx) (nn : Byte) : EncodesInRow.Statement (.ldi x nn) := formatXI_row _ x nn
theorem EncodesInRow.addi (x : RegIdx) (nn : Byte) : EncodesInRow.Statement (.addi x nn) := formatXI_row _ x nn
theorem EncodesInRow.mov (x : RegIdx) (y : RegIdx) : EncodesInRow.Statement (.mov x y) := formatXY_subrow _ x y _
theorem EncodesInRow.or (x : RegIdx) (y : RegIdx) : EncodesInRow.Statement (.or x y) := formatXY_subrow _ x y _
theorem EncodesInRow.and (x : RegIdx) (y : RegIdx) : EncodesInRow.Statement (.and x y) := formatXY_subrow _ x y _
theorem EncodesInRow.xor (x : RegIdx) (y : RegIdx) : EncodesInRow.Statement (.xor x y) := formatXY_subrow _ x y _
theorem EncodesInRow.add (x : RegIdx) (y : RegIdx) : EncodesInRow.Statement (.add x y) := formatXY_subrow _ x y _
theorem EncodesInRow.sub (x : RegIdx) (y : RegIdx) : EncodesInRow.Statement (.sub x y) := formatXY_subrow _ x y _
theorem EncodesInRow.shr (x : RegIdx) (y : RegIdx) : EncodesInRow.Statement (.shr x y) := formatXY_subrow _ x y _
theorem EncodesInRow.subn (x : RegIdx) (y : RegIdx) : EncodesInRow.Statement (.subn x y) := formatXY_subrow _ x y _
theorem EncodesInRow.shl (x : RegIdx) (y : RegIdx) : EncodesInRow.Statement (.shl x y) := formatXY_subrow _ x y _
theorem EncodesInRow.sner (x : RegIdx) (y : RegIdx) : EncodesInRow.Statement (.sner x y) := formatXY_row _ x y _
theorem EncodesInRow.lda (nnn : Addr12) : EncodesInRow.Statement (.lda nnn) := formatA_row _ nnn
theorem EncodesInRow.jpv0 (nnn : Addr12) : EncodesInRow.Statement (.jpv0 nnn) := formatA_row _ nnn
theorem EncodesInRow.rnd (x : RegIdx) (nn : Byte) : EncodesInRow.Statement (.rnd x nn) := formatXI_row _ x nn
theorem EncodesInRow.drw (x : RegIdx) (y : RegIdx) (n : Nat) : EncodesInRow.Statement (.drw x y n) := formatXY_row _ x y _
theorem EncodesInRow.skp (x : RegIdx) : EncodesInRow.Statement (.skp x) := formatXK_row _ x _
theorem EncodesInRow.sknp (x : RegIdx) : EncodesInRow.Statement (.sknp x) := formatXK_row _ x _
theorem EncodesInRow.lddt (x : RegIdx) : EncodesInRow.Statement (.lddt x) := formatXK_row _ x _
theorem EncodesInRow.ldk (x : RegIdx) : EncodesInRow.Statement (.ldk x) := formatXK_row _ x _
theorem EncodesInRow.stdt (x : RegIdx) : EncodesInRow.Statement (.stdt x) := formatXK_row _ x _
theorem EncodesInRow.stst (x : RegIdx) : EncodesInRow.Statement (.stst x) := formatXK_row _ x _
theorem EncodesInRow.adda (x : RegIdx) : EncodesInRow.Statement (.adda x) := formatXK_row _ x _
theorem EncodesInRow.ldf (x : RegIdx) : EncodesInRow.Statement (.ldf x) := formatXK_row _ x _
theorem EncodesInRow.bcd (x : RegIdx) : EncodesInRow.Statement (.bcd x) := formatXK_row _ x _
theorem EncodesInRow.stm (x : RegIdx) : EncodesInRow.Statement (.stm x) := formatXK_row _ x _
theorem EncodesInRow.ldm (x : RegIdx) : EncodesInRow.Statement (.ldm x) := formatXK_row _ x _

end Sys2Proof.Laws
end

