-- ==== Sys2Proof/Tests/Slice0.lean ====
section
/-! SUPPORT. Tests. Words are written out from the encodings of 30_encoding.md R91 and R96, expected results are the vectors of
95_test_vectors.md, section 2, each for one instruction. At the end, for each statement with hypotheses, a witness that meets
them. -/

namespace Sys2Proof.Tests

open Sys2Proof.Machine

/-! ### Well-formedness (30_encoding.md R93) -/

theorem test_wellFormed_rowCount_15 : (Instr.drw 0 0 15).WellFormed = true := by decide

theorem test_wellFormed_rowCount_16_refused : (Instr.drw 0 0 16).WellFormed = false := by decide

/-! ### Decoding, one word for each instruction (R91, R96) -/

theorem test_decode_cls : decode 0x00E0 = .ok .cls := by decide
theorem test_decode_ret : decode 0x00EE = .ok .ret := by decide
theorem test_decode_jp : decode 0x1204 = .ok (.jp 0x204) := by decide
theorem test_decode_call : decode 0x2210 = .ok (.call 0x210) := by decide
theorem test_decode_sei : decode 0x332A = .ok (.sei 3 0x2A) := by decide
theorem test_decode_snei : decode 0x4F00 = .ok (.snei 15 0x00) := by decide
theorem test_decode_ser : decode 0x5120 = .ok (.ser 1 2) := by decide
theorem test_decode_ldi : decode 0x6A05 = .ok (.ldi 10 0x05) := by decide
theorem test_decode_addi : decode 0x71FF = .ok (.addi 1 0xFF) := by decide
theorem test_decode_mov : decode 0x8150 = .ok (.mov 1 5) := by decide
theorem test_decode_or : decode 0x8121 = .ok (.or 1 2) := by decide
theorem test_decode_and : decode 0x8122 = .ok (.and 1 2) := by decide
theorem test_decode_xor : decode 0x8123 = .ok (.xor 1 2) := by decide
theorem test_decode_add : decode 0x8374 = .ok (.add 3 7) := by decide
theorem test_decode_sub : decode 0x8FA5 = .ok (.sub 15 10) := by decide
theorem test_decode_shr : decode 0x8126 = .ok (.shr 1 2) := by decide
theorem test_decode_subn : decode 0x81F7 = .ok (.subn 1 15) := by decide
theorem test_decode_shl : decode 0x830E = .ok (.shl 3 0) := by decide
theorem test_decode_sner : decode 0x9120 = .ok (.sner 1 2) := by decide
theorem test_decode_lda : decode 0xAFFF = .ok (.lda 0xFFF) := by decide
theorem test_decode_jpv0 : decode 0xB300 = .ok (.jpv0 0x300) := by decide
theorem test_decode_rnd : decode 0xC512 = .ok (.rnd 5 0x12) := by decide
theorem test_decode_drw : decode 0xDF01 = .ok (.drw 15 0 1) := by decide
theorem test_decode_skp : decode 0xEF9E = .ok (.skp 15) := by decide
theorem test_decode_sknp : decode 0xE0A1 = .ok (.sknp 0) := by decide
theorem test_decode_lddt : decode 0xF307 = .ok (.lddt 3) := by decide
theorem test_decode_ldk : decode 0xF10A = .ok (.ldk 1) := by decide
theorem test_decode_stdt : decode 0xF315 = .ok (.stdt 3) := by decide
theorem test_decode_stst : decode 0xF318 = .ok (.stst 3) := by decide
theorem test_decode_adda : decode 0xF21E = .ok (.adda 2) := by decide
theorem test_decode_ldf : decode 0xF329 = .ok (.ldf 3) := by decide
theorem test_decode_bcd : decode 0xF233 = .ok (.bcd 2) := by decide
theorem test_decode_stm : decode 0xFF55 = .ok (.stm 15) := by decide
theorem test_decode_ldm : decode 0xF265 = .ok (.ldm 2) := by decide

/-- Section 2.1: alias words. -/
theorem test_decode_alias_words :
    decode 0x00FF = .ok .ret ∧ decode 0x00F0 = .ok .cls ∧ decode 0x5129 = .ok (.ser 1 2) ∧
      decode 0x912F = .ok (.sner 1 2) := by decide

/-- The word is no instruction. -/
def unknown (op : Word) : Bool := (decode op).toOption.isNone

/-- Section 2.1: unknown words of the families 0 and E. -/
theorem test_decode_unknown_words :
    [0x00E1, 0x00EC, 0x00DE, 0x01EE, 0x0000, 0x0FFF, 0xE09F, 0xE19D, 0xE000, 0xEFFF].all unknown = true := by decide

/-- Section 2.1: unknown words of the families 8 and F. -/
theorem test_decode_unknown_selectors :
    [0x8008, 0x812F, 0x8FFD, 0xF000, 0xF100, 0xF175, 0xF1FF, 0xF130].all unknown = true := by decide

/-- R90: an instruction is two bytes, the rest stays. -/
theorem test_decodeBytes_rest : decodeBytes [0x6A, 0x05, 0x12] = .ok (.ldi 10 0x05, [0x12]) := by decide

theorem test_decodeBytes_one_byte_refused : decodeBytes [0x6A] = .error .tooFewBytes := by decide

theorem test_decodeTableWord : decodeTableWord 16 0xDAB5 = some (.drw 10 11 5) := by decide

/-! ### One step -/

/-- The state after a step, if there is one. -/
def after (o : Host.Outcome State Fault Refusal) : Option State :=
  match o with
  | .next t => some t
  | _ => none

/-- The reset state with the given registers. -/
def withRegs (regs : List (RegIdx × Byte)) : State := regs.foldl (fun s p => s.writeV p.1 p.2) State.reset

/-- The state after the step that runs the word. -/
def run (w : Nat) (s : State) : Option State := after (step (s.withFetchWord 16 w))

theorem test_cls : (run 0x00E0 { State.reset with px := pxSet State.reset.px 5 true }).map (fun t => (pxGet t.px 5, t.drawFlag)) = some (false, true) := by decide
theorem test_ret : (run 0x00EE { State.reset with pc := 0x212, sp := 1, stack := State.reset.stack.set 0 0x204 }).map (fun t => (t.sp.val, t.pc, t.stack[0])) = some (0, 0x206, 0x204) := by decide
theorem test_ret_empty : (run 0x00EE .reset).map (fun t => (t.halted, t.pc)) = some (some (.outOfBoundsAccess 0), 0x200) := by decide
theorem test_jp_odd : (run 0x1201 .reset).map (fun t => t.pc) = some 0x201 := by decide
theorem test_call : (run 0x2210 { State.reset with pc := 0x204 }).map (fun t => (t.stack[0], t.sp.val, t.pc)) = some (0x204, 1, 0x210) := by decide
theorem test_call_full : (run 0x2300 { State.reset with sp := 16 }).map (fun t => (t.halted, t.sp.val, t.pc)) = some (some (.outOfBoundsAccess 16), 16, 0x200) := by decide
theorem test_jpv0 : (run 0xBFFF (withRegs [(0, 0xFF)])).map (fun t => t.pc) = some 0x10FE := by decide
theorem test_sei_equal : (run 0x332A (withRegs [(3, 0x2A)])).map (fun t => t.pc) = some 0x204 := by decide
theorem test_sei_differs : (run 0x332A (withRegs [(3, 0x2B)])).map (fun t => t.pc) = some 0x202 := by decide
theorem test_snei_equal : (run 0x432A (withRegs [(3, 0x2A)])).map (fun t => t.pc) = some 0x202 := by decide
theorem test_snei_differs : (run 0x432A .reset).map (fun t => t.pc) = some 0x204 := by decide
theorem test_ser_equal : (run 0x5129 (withRegs [(1, 7), (2, 7)])).map (fun t => t.pc) = some 0x204 := by decide
theorem test_ser_differs : (run 0x5120 (withRegs [(1, 7), (2, 8)])).map (fun t => t.pc) = some 0x202 := by decide
theorem test_sner_differs : (run 0x9120 (withRegs [(1, 7), (2, 8)])).map (fun t => t.pc) = some 0x204 := by decide
theorem test_sner_equal : (run 0x9120 (withRegs [(1, 7), (2, 7)])).map (fun t => t.pc) = some 0x202 := by decide
theorem test_skp_pressed : (run 0xE49E { withRegs [(4, 10)] with keypad := State.reset.keypad.set 10 true }).map (fun t => t.pc) = some 0x204 := by decide
theorem test_skp_no_such_key : (run 0xE09E (withRegs [(0, 0xFF)])).map (fun t => (t.halted, t.pc)) = some (some (.outOfBoundsAccess 255), 0x200) := by decide
theorem test_sknp_pressed : (run 0xE4A1 { withRegs [(4, 10)] with keypad := State.reset.keypad.set 10 true }).map (fun t => t.pc) = some 0x202 := by decide
theorem test_sknp_not_pressed : (run 0xE4A1 (withRegs [(4, 10)])).map (fun t => t.pc) = some 0x204 := by decide
theorem test_ldi : (run 0x6A05 .reset).map (fun t => (t.readV 10, t.currentOpcode, t.pc)) = some (0x05, 0x6A05, 0x202) := by decide
theorem test_addi_wraps : (run 0x7220 (withRegs [(2, 0xF0), (15, 0)])).map (fun t => (t.readV 2, t.readV 15)) = some (0x10, 0) := by decide
theorem test_addi_into_vf : (run 0x7FFF (withRegs [(15, 1)])).map (fun t => t.readV 15) = some 0 := by decide
theorem test_mov : (run 0x8150 (withRegs [(5, 0x33)])).map (fun t => (t.readV 1, t.readV 5)) = some (0x33, 0x33) := by decide
theorem test_or_keeps_vf : (run 0x8121 (withRegs [(1, 0xF0), (2, 0x0F), (15, 1)])).map (fun t => (t.readV 1, t.readV 15)) = some (0xFF, 1) := by decide
theorem test_and : (run 0x8122 (withRegs [(1, 0xF5), (2, 0x3C)])).map (fun t => t.readV 1) = some 0x34 := by decide
theorem test_xor : (run 0x8123 (withRegs [(1, 0xF5), (2, 0x3C)])).map (fun t => t.readV 1) = some 0xC9 := by decide
theorem test_xor_same : (run 0x8113 (withRegs [(1, 0xAA)])).map (fun t => t.readV 1) = some 0 := by decide
theorem test_add_carry : (run 0x8124 (withRegs [(1, 0xAB), (2, 0xCD)])).map (fun t => (t.readV 1, t.readV 15)) = some (0x78, 1) := by decide
theorem test_add_vf_is_x : (run 0x8FA4 (withRegs [(15, 0xF0), (10, 0x20)])).map (fun t => t.readV 15) = some 0x21 := by decide
theorem test_sub_equal : (run 0x8125 (withRegs [(1, 5), (2, 5), (15, 1)])).map (fun t => (t.readV 1, t.readV 15)) = some (0, 0) := by decide
theorem test_sub_vf_is_y : (run 0x81F5 (withRegs [(1, 0x10), (15, 5)])).map (fun t => (t.readV 1, t.readV 15)) = some (0x0F, 1) := by decide
theorem test_shr_ignores_y : (run 0x8126 (withRegs [(1, 4), (2, 0xFF)])).map (fun t => (t.readV 1, t.readV 15, t.readV 2)) = some (2, 0, 0xFF) := by decide
theorem test_shr_vf_is_x : (run 0x8F06 (withRegs [(15, 0xFF)])).map (fun t => t.readV 15) = some 0 := by decide
theorem test_subn : (run 0x8127 (withRegs [(1, 3), (2, 0x0A)])).map (fun t => (t.readV 1, t.readV 15)) = some (7, 1) := by decide
theorem test_subn_vf_is_y : (run 0x81F7 (withRegs [(1, 5), (15, 0x10)])).map (fun t => (t.readV 1, t.readV 15)) = some (0xFC, 1) := by decide
theorem test_shl : (run 0x830E (withRegs [(3, 0xC1)])).map (fun t => (t.readV 3, t.readV 15)) = some (0x82, 1) := by decide
theorem test_shl_vf_is_x : (run 0x8F0E (withRegs [(15, 0x80)])).map (fun t => t.readV 15) = some 2 := by decide
theorem test_lda : (run 0xAFFF .reset).map (fun t => t.i) = some 0x0FFF := by decide
theorem test_adda_passes_fff : (run 0xF01E { withRegs [(0, 1), (15, 9)] with i := 0x0FFF }).map (fun t => (t.i, t.readV 15)) = some (0x1000, 9) := by decide
theorem test_adda_wraps : (run 0xF01E { withRegs [(0, 2)] with i := 0xFFFF }).map (fun t => t.i) = some 1 := by decide
theorem test_ldf : (run 0xF329 (withRegs [(3, 0xFF)])).map (fun t => t.i) = some 0x04FB := by decide
theorem test_bcd : (run 0xF233 { withRegs [(2, 0x7B)] with i := 5 }).map (fun t => (t.memory.read 5, t.memory.read 6, t.memory.read 7)) = some (1, 2, 3) := by decide
theorem test_bcd_out_of_range : (run 0xF033 { withRegs [(0, 0xFF)] with i := 0x0FFF }).map (fun t => (t.halted, t.pc)) = some (some (.outOfBoundsAccess 0x1000), 0x200) := by decide
theorem test_bcd_first_out_of_range : (run 0xF033 { withRegs [(0, 0xFF)] with i := 0x1000 }).map (fun t => (t.halted, t.memory.length, t.freeDraws)) =
    some (some (.outOfBoundsAccess 0x1000), 2, 0) := by decide
theorem test_stm : (run 0xF255 { withRegs [(0, 0x11), (1, 0x22), (2, 0x33), (3, 0x44)] with i := 0x300 }).map (fun t => ((t.memory.read 0x300, t.memory.read 0x302), t.memory.read 0x303, t.i)) = some ((0x11, 0x33), 0, 0x300) := by decide
theorem test_stm_last_byte : (run 0xF055 { withRegs [(0, 0x77)] with i := 0x0FFF }).map (fun t => (t.memory.read 0xFFF, t.halted)) = some (0x77, none) := by decide
theorem test_ldm : (run 0xF265 { withRegs [(3, 9)] with i := 0x300, memory := [(0x300, 2), (0x301, 5), (0x302, 4)] }).map (fun t => (t.readV 0, t.readV 2, t.readV 3)) = some (2, 4, 9) := by decide
theorem test_ldm_out_of_range : (run 0xF165 { State.reset with i := 0x0FFF }).map (fun t => (t.halted, t.pc)) = some (some (.outOfBoundsAccess 0x1000), 0x200) := by decide
theorem test_ldm_first_out_of_range : (run 0xF165 { withRegs [(0, 9), (1, 9)] with i := 0x1000 }).map (fun t => (t.halted, t.readV 0, t.readV 1)) =
    some (some (.outOfBoundsAccess 0x1000), 9, 9) := by decide
theorem test_drw_first_out_of_range : (run 0xD125 { State.reset with i := 0x1000 }).map (fun t => (t.halted, t.drawFlag, pxGet t.px 0)) =
    some (some (.outOfBoundsAccess 0x1000), false, false) := by decide
theorem test_drw_one_set_one_cleared : (run 0xD121 { withRegs [(1, 2), (2, 1)] with i := 0x300, memory := [(0x300, 0xC0)], px := pxSet State.reset.px 66 true }).map (fun t => (pxGet t.px 66, pxGet t.px 67, t.readV 15)) = some (false, true, 1) := by decide
theorem test_drw_wraps : (run 0xD121 { withRegs [(1, 0xFF), (2, 0xFF)] with i := 0x300, memory := [(0x300, 0x81)] }).map (fun t => (pxGet t.px 191, pxGet t.px 198, t.drawFlag)) = some (true, true, true) := by decide
theorem test_stdt : (run 0xF315 (withRegs [(3, 0x3C)])).map (fun t => t.delayTimer) = some 0x3C := by decide
theorem test_stst : (run 0xF318 (withRegs [(3, 0x05)])).map (fun t => t.soundTimer) = some 0x05 := by decide
theorem test_lddt : (run 0xF307 { State.reset with delayTimer := 0x1E }).map (fun t => (t.readV 3, t.delayTimer)) = some (0x1E, 0x1E) := by decide
theorem test_ldk_pending : (run 0xF50A .reset).map (fun t => (t.pc, t.result, t.currentOpcode)) = some (0x200, some .pending, 0xF50A) := by decide
theorem test_ldk_pressed : (run 0xF50A { State.reset with keypad := State.reset.keypad.set 7 true }).map (fun t => (t.readV 5, t.pc, t.result)) = some (7, 0x202, some .ok) := by decide

/-- 0xC512 with `Rnd() = 0xFF`. -/
theorem test_rnd : (after (State.reset.rndWith 0xFF 5 0x12)).map (fun t => (t.readV 5, t.rndCalls)) = some (0x12, 1) := by
  decide

/-- 0xC5F0 with `Rnd() = 0xA7`. -/
theorem test_rnd_mask : (after (State.reset.rndWith 0xA7 5 0xF0)).map (fun t => t.readV 5) = some 0xA0 := by decide

/-! ### Fetch, faults, reset and the agents (sections 2.1, 2.6, 2.7) -/

theorem test_fetch_last_word :
    (run 0x1200 { State.reset with pc := 0x0FFE }).map (fun t => (t.currentOpcode, t.pc)) = some (0x1200, 0x200) := by decide

theorem test_fetch_outside : (after (step { State.reset with pc := 0x0FFF })).map (fun t => (t.halted, t.currentOpcode)) =
    some (some (.outOfBoundsFetch 0x0FFF), 0) := by decide

theorem test_unknown_opcode : (run 0x8128 .reset).map (fun t => (t.halted, t.result, t.pc, t.currentOpcode)) =
    some (some (.unknownOpcode 0x8128), some (.err (.unknownOpcode 0x8128)), 0x200, 0x8128) := by decide

theorem test_no_step_when_halted :
    step { State.reset with halted := some (.unknownOpcode 0) } = .fault (.stepWhileHalted (.unknownOpcode 0)) := rfl

/-- 70_reset_and_hazards.md R240: the named reset state is `reset()` with the default FONT. -/
theorem test_reset : State.resetWith defaultFont State.reset.px = State.reset := by decide

theorem test_load_too_long : load (List.replicate 3585 0) .reset = .error .memoryExhausted := by
  rw [load, if_neg]; rw [List.length_replicate]; decide

theorem test_tick_delay : (Move.tickDelay.apply { State.reset with delayTimer := 1 }).delayTimer = 0 := by decide

theorem test_tick_delay_zero : (Move.tickDelay.apply State.reset).delayTimer = 0 := by decide

theorem test_tick_sound :
    (Move.tickSound.apply { State.reset with soundTimer := 5, delayTimer := 9 }) =
      { State.reset with soundTimer := 4, delayTimer := 9 } := by decide

/-! ### Witnesses: hypotheses of the statements, met -/

/-- The reset state with a jump to itself at PC. -/
def parkedState : State := State.reset.withFetchWord 16 0x1200

theorem witness_inv : parkedState.Inv ∧ ∃ t, step parkedState = .next t :=
  ⟨⟨by decide, by decide, by decide, (fun _ h => nomatch h), (fun _ h => nomatch h)⟩, _, rfl⟩

theorem witness_reachable : Reachable defaultFont (State.reset.resetAgain defaultFont pxClear) :=
  .launch State.reset _ pxClear [] rfl

theorem witness_load : (List.replicate 3584 (0 : Byte)).length ≤ 3584 ∧ 3584 < (List.replicate 3585 (0 : Byte)).length := by
  rw [List.length_replicate, List.length_replicate]; decide

theorem witness_wellFormed : (Instr.drw 15 15 15).WellFormed = true ∧ (Instr.stm 15).WellFormed = true := by decide

theorem witness_decoded : decode 0x5129 = .ok (.ser 1 2) := by decide

theorem witness_row_match : (0x00FF : Word) &&& (opcodeRow .ret).mask = (opcodeRow .ret).pattern := by decide

theorem witness_row_none (i : Instr) : (0x8128 : Word) &&& (opcodeRow i).mask ≠ (opcodeRow i).pattern := by
  cases i <;> simp only [opcodeRow] <;> decide

theorem witness_alias : decode (BitVec.ofNat 16 (0x5000 + 0x100 * 15 + 0x10 * 15 + 15)) = .ok (.ser 15 15) := by decide

theorem witness_step_decoded :
    let s : State := { State.reset with pc := 0x0FFE, memory := [(0xFFE, 0x1F), (0xFFF, 0xFE)] }
    s.halted = none ∧ s.pc.toNat ≤ 0x0FFE ∧
      (0x1FFE : Word).toNat = 256 * (s.memory.read s.pc.toNat).toNat + (s.memory.read (s.pc.toNat + 1)).toNat ∧
      decode 0x1FFE = .ok (.jp 0xFFE) := by decide

theorem witness_step_unknown :
    let s := State.reset
    s.halted = none ∧ s.pc.toNat ≤ 0x0FFE ∧
      (0x0000 : Word).toNat = 256 * (s.memory.read s.pc.toNat).toNat + (s.memory.read (s.pc.toNat + 1)).toNat ∧
      decode 0x0000 = .error (.noHandler 0x0000) := by decide

theorem witness_fetch_outside :
    let s : State := { State.reset with pc := 0x0FFF }
    s.halted = none ∧ 0x0FFE < s.pc.toNat := by decide

theorem witness_halted : ({ State.reset with halted := some (.outOfBoundsAccess 0) } : State).halted =
    some (.outOfBoundsAccess 0) := by decide

theorem witness_parked : ({ State.reset with pc := 0x0FFE, memory := [(0xFFE, 0x1F), (0xFFF, 0xFE)] } : State).halted = none ∧
    ({ State.reset with pc := 0x0FFE, memory := [(0xFFE, 0x1F), (0xFFF, 0xFE)] } : State).parked :=
  ⟨rfl, by decide, by decide⟩

theorem witness_call : (15 : Fin 16).val = ({ State.reset with sp := 15 } : State).sp.val ∧
    ({ State.reset with sp := 16 } : State).sp.val = 16 := by decide

theorem witness_ret : (15 : Fin 16).val + 1 = ({ State.reset with sp := 16 } : State).sp.val ∧ State.reset.sp.val = 0 := by
  decide

theorem witness_call_then_return : ({ State.reset with sp := 15 } : State).sp.val < 16 := by decide

theorem witness_skips : State.reset.readV 3 = 0 ∧ ¬ State.reset.readV 3 = 1 ∧
    (withRegs [(1, 7)]).readV 1 ≠ (withRegs [(1, 7)]).readV 2 := by decide

theorem witness_key_skips : ((withRegs [(4, 15)]).readV 4).toNat = (15 : Fin 16).val ∧
    15 < ((withRegs [(4, 16)]).readV 4).toNat := by decide

theorem witness_vf_aliased : (0 : RegIdx) ≠ 15 ∧ (14 : RegIdx) ≠ 15 := by decide

theorem witness_flag_writers : Instr.shl 14 15 ∈ [Instr.add 14 15, .sub 14 15, .shr 14 15, .subn 14 15, .shl 14 15] ∧
    ∃ t, exec (.shl 14 15) State.reset = .next t :=
  ⟨by decide, _, rfl⟩

theorem witness_draw_ok : ∃ t, exec (.drw 0 0 15) State.reset = .next t ∧ t.result = some .ok := ⟨_, rfl, by decide⟩

theorem witness_vf_changes : ∃ t, exec (.ldi 15 1) State.reset = .next t ∧ t.readV 15 ≠ State.reset.readV 15 :=
  ⟨_, rfl, by decide⟩

theorem witness_first_address_out : 0xFFF < ({ State.reset with i := 0x1000 } : State).i.toNat + (0 : RegIdx).val := by decide

theorem witness_bcd : ({ State.reset with i := 0x0FFD } : State).i.toNat + 2 ≤ 0xFFF ∧
    0xFFF < ({ State.reset with i := 0x0FFE } : State).i.toNat + 2 := by decide

theorem witness_store_load : ({ State.reset with i := 0x0FF0 } : State).i.toNat + (15 : RegIdx).val ≤ 0xFFF ∧
    0xFFF < ({ State.reset with i := 0x0FF1 } : State).i.toNat + (15 : RegIdx).val := by decide

theorem witness_store_then_load : ∃ t, exec (.stm 15) { State.reset with i := 0x0FF0 } = .next t ∧
    ∃ u : State, u.memory = t.memory ∧ u.i = t.i :=
  ⟨_, rfl, _, rfl, rfl⟩

theorem witness_store_fetched :
    let s : State := { State.reset with pc := 0x0FFC, i := 0x0FFE }
    s.i = s.pc + 2 ∧ 1 ≤ (1 : RegIdx).val ∧ s.i.toNat + (1 : RegIdx).val ≤ 0xFFF := by decide

theorem witness_draw :
    (15 < 16 ∧ ({ State.reset with i := 0x0FF1 } : State).i.toNat + 15 ≤ 0x1000) ∧
      (0 < 16 ∧ ({ State.reset with i := 0xFFFF } : State).i.toNat + 0 > 0x1000 ∧ (0 : Nat) = 0) := by decide

/-- In DrawXorsTheSpriteAndReportsCollision: a cell that is lit and set, and one that is lit and not set. -/
theorem witness_sprite_lights :
    let s : State := { withRegs [(1, 63), (2, 31)] with i := 0x0FFF, memory := [(0xFFF, 0xC0)], px := pxSet pxClear 2047 true }
    spriteLights s 1 2 1 2047 ∧ pxGet s.px 2047 = true ∧ spriteLights s 1 2 1 0 ∧ pxGet s.px 0 = false :=
  ⟨⟨0, 0, by decide, by decide, by decide, by decide⟩, by decide, ⟨0, 1, by decide, by decide, by decide, by decide⟩,
    by decide⟩

/-- In the same statement: no cell is lit, so there is no collision. -/
theorem witness_no_collision (k : Nat) : ¬ (spriteLights State.reset 1 2 0 k ∧ pxGet State.reset.px k = true) := by
  rintro ⟨⟨row, col, h, _⟩, _⟩
  exact Nat.not_lt_zero row h

theorem witness_draw_out_of_range : 0 < 1 ∧ 0x1000 < ({ State.reset with i := 0x1000 } : State).i.toNat + 1 ∧
    0x1000 < ({ State.reset with i := 0x0FFF } : State).i.toNat + 2 := by decide

theorem witness_pixelIndex : 14 < 15 ∧ 7 < 8 ∧ pixelIndex 255 255 14 7 = pixelIndex 255 255 14 7 := by decide

theorem witness_draw_twice : ∃ t, exec (.drw 0 1 15) { State.reset with i := 0x0FF1 } = .next t ∧
    t.readV 0 = State.reset.readV 0 ∧ t.readV 1 = State.reset.readV 1 :=
  ⟨_, rfl, by decide, by decide⟩

theorem witness_key_wait : (∀ k : Fin 16, State.reset.key k = false) ∧
    ∃ k : Fin 16, ({ State.reset with keypad := State.reset.keypad.set 15 true } : State).key k = true := by
  exact ⟨by decide, 15, by decide⟩

theorem witness_exec_next : ∃ t, exec (.ldm 15) { State.reset with i := 0x0FF0 } = .next t := ⟨_, rfl⟩

theorem witness_exec_error : ∃ t, exec .ret State.reset = .next t ∧ t.result = some (.err (.outOfBoundsAccess 0)) ∧
    ∃ x nnn, Instr.ret ∈ [Instr.ret, .call nnn, .skp x, .sknp x] :=
  ⟨_, rfl, by decide, 0, 0, by decide⟩

/-- In FaultKeepsPcAndWhatTheInstructionDoesNotWrite: the first access fails, at the lowest I where it does. -/
theorem witness_first_access_fails :
    (∃ t, exec (.ldm 0) { State.reset with i := 0x1000 } = .next t ∧ t.result = some (.err (.outOfBoundsAccess 0x1000))) ∧
      (∃ t, exec (.drw 0 1 1) { State.reset with i := 0x1000 } = .next t ∧
        t.result = some (.err (.outOfBoundsAccess 0x1000))) ∧
      0xFFF < ({ State.reset with i := 0x1000 } : State).i.toNat ∧ Instr.ldm 0 ∈ [Instr.bcd 0, .stm 0, .ldm 0] :=
  ⟨⟨_, rfl, by decide⟩, ⟨_, rfl, by decide⟩, by decide, by decide⟩

theorem witness_raisedBy : raisedBy (.stm 15) { State.reset with i := 0x0FF1 } = some (.outOfBoundsAccess 0x1000) ∧
    raisedBy (.stm 15) { State.reset with i := 0x0FF0 } = none ∧
    raisedBy (.drw 0 0 0) { State.reset with i := 0xFFFF } = none := by decide

theorem witness_default_advance : defaultAdvance (.ldm 15) = true ∧
    raisedBy (.ldm 15) { State.reset with i := 0x0FF0 } = none := by decide

/-- In ResetLeavesTheStatedValues: the first and the last address of the zeroed range. -/
theorem witness_reset_addresses : (0x050 ≤ 0x050 ∧ 0x050 ≤ 0xFFF) ∧ 0x050 ≤ 0xFFF ∧ 0xFFF ≤ 0xFFF := by decide

theorem witness_no_key_instruction (x : RegIdx) : Instr.cls ∉ [Instr.skp x, .sknp x, .ldk x] := by simp

end Sys2Proof.Tests
end

section
/-! SUPPORT. What each named update may write, as one rule per update: an instruction's frame is the chain of the rules of the
updates it makes. -/

namespace Sys2Proof.Machine

/-! ### Frames compose -/

theorem Piece.same_trans {p : Piece} {s t u : State} (h : p.same s t) (h' : p.same t u) : p.same s u := by
  cases p <;> exact Eq.trans h' h

theorem SameBut.refl (w : Piece → Prop) (s : State) : SameBut w s s := fun p _ => by cases p <;> rfl

theorem SameBut.trans {w : Piece → Prop} {s t u : State} (h : SameBut w s t) (h' : SameBut w t u) : SameBut w s u :=
  fun p hp => Piece.same_trans (h p hp) (h' p hp)

theorem SameBut.mono {w w' : Piece → Prop} {s t : State} (h : SameBut w s t) (hw : ∀ p, w p → w' p) : SameBut w' s t :=
  fun p hp => h p fun h' => hp (hw p h')

theorem SameBut.keypad_eq {w : Piece → Prop} {s t : State} (h : SameBut w s t) (hw : ∀ k, ¬ w (.key k)) :
    t.keypad = s.keypad :=
  Vector.ext fun k hk => h (.key ⟨k, hk⟩) (hw _)

/-! ### One rule per update -/

section
variable {w : Piece → Prop} {s t : State}

theorem SameBut.writeV (h : SameBut w s t) (x : RegIdx) (b : Byte) (hw : w (.v x)) : SameBut w s (t.writeV x b) :=
  h.trans fun p hp => by
    cases p with
    | v r =>
      have hr : x ≠ r := by rintro rfl; exact hp hw
      simp [Piece.same, State.readV_writeV, hr]
    | _ => rfl

theorem SameBut.loadV (h : SameBut w s t) (bs : List Byte) (hw : ∀ r : RegIdx, r.val < bs.length → w (.v r)) :
    SameBut w s (t.loadV bs) :=
  h.trans fun p hp => by
    cases p with
    | v r =>
      have hr : bs.length ≤ r.val := Nat.le_of_not_lt fun hr => hp (hw r hr)
      simp [Piece.same, State.readV_loadV, hr]
    | _ => simp [Piece.same]

theorem SameBut.writeI (h : SameBut w s t) (a : Word) (hw : w .i) : SameBut w s (t.writeI a) :=
  h.trans fun p hp => by
    cases p with
    | i => exact absurd hw hp
    | _ => rfl

theorem SameBut.writePc (h : SameBut w s t) (a : Word) (hw : w .pc) : SameBut w s (t.writePc a) :=
  h.trans fun p hp => by
    cases p with
    | pc => exact absurd hw hp
    | _ => rfl

theorem SameBut.skipIf (h : SameBut w s t) (c : Bool) (hw : w .pc) : SameBut w s (t.skipIf c) := by
  cases c
  · exact h.writePc _ hw
  · exact h.writePc _ hw

theorem SameBut.writeDelay (h : SameBut w s t) (b : Byte) (hw : w .delayTimer) : SameBut w s (t.writeDelay b) :=
  h.trans fun p hp => by
    cases p with
    | delayTimer => exact absurd hw hp
    | _ => rfl

theorem SameBut.writeSound (h : SameBut w s t) (b : Byte) (hw : w .soundTimer) : SameBut w s (t.writeSound b) :=
  h.trans fun p hp => by
    cases p with
    | soundTimer => exact absurd hw hp
    | _ => rfl

theorem SameBut.writeMemory (h : SameBut w s t) (m : Memory) (hw : ∀ a, m.read a = t.memory.read a ∨ w (.mem a)) :
    SameBut w s (t.writeMemory m) :=
  h.trans fun p hp => by
    cases p with
    | mem a => exact (hw a).resolve_right hp
    | _ => rfl

theorem SameBut.writePx (h : SameBut w s t) (px : Surface) (hw : ∀ k, pxGet px k = pxGet t.px k ∨ w (.pixel k)) :
    SameBut w s (t.writePx px) :=
  h.trans fun p hp => by
    cases p with
    | pixel k => exact (hw k).resolve_right hp
    | _ => rfl

theorem SameBut.writeDrawFlag (h : SameBut w s t) (b : Bool) (hw : w .drawFlag) : SameBut w s (t.writeDrawFlag b) :=
  h.trans fun p hp => by
    cases p with
    | drawFlag => exact absurd hw hp
    | _ => rfl

theorem SameBut.setKey (h : SameBut w s t) (j : Fin 16) (b : Bool) (hw : w (.key j)) :
    SameBut w s { t with keypad := t.keypad.set j b } :=
  h.trans fun p hp => by
    cases p with
    | key k =>
      have hk : j ≠ k := by rintro rfl; exact hp hw
      simp [Piece.same, State.key, Fin.val_ne_of_ne hk]
    | _ => rfl

theorem SameBut.push (h : SameBut w s t) (ret : Word) (hsp : w .sp)
    (hw : ∀ k : Fin 16, k.val = t.sp.val → w (.stack k)) : SameBut w s (t.push ret) := by
  unfold State.push
  split
  · refine h.trans fun p hp => ?_
    cases p with
    | sp => exact absurd hsp hp
    | stack k =>
      have hk : t.sp.val ≠ k.val := fun hk => hp (hw k hk.symm)
      simp [Piece.same, hk]
    | _ => rfl
  · exact h

theorem SameBut.pop (h : SameBut w s t) (hw : w .sp) : SameBut w s t.pop :=
  h.trans fun p hp => by
    cases p with
    | sp => exact absurd hw hp
    | _ => rfl

theorem SameBut.countRnd (h : SameBut w s t) (hw : w .rndCalls) : SameBut w s t.countRnd :=
  h.trans fun p hp => by
    cases p with
    | rndCalls => exact absurd hw hp
    | _ => rfl

theorem SameBut.countDraw (h : SameBut w s t) (hw : w .freeDraws) : SameBut w s t.countDraw :=
  h.trans fun p hp => by
    cases p with
    | freeDraws => exact absurd hw hp
    | _ => rfl

theorem SameBut.latchResult (h : SameBut w s t) (r : StepResult) (hw : w .result) : SameBut w s (t.latchResult r) :=
  h.trans fun p hp => by
    cases p with
    | result => exact absurd hw hp
    | _ => rfl

theorem SameBut.latchHalted (h : SameBut w s t) (e : Error) (hw : w .halted) : SameBut w s (t.latchHalted e) :=
  h.trans fun p hp => by
    cases p with
    | halted => exact absurd hw hp
    | _ => rfl

end

/-! ### The cells of a sprite -/

/-- Flipping cells one after another, repeated ones too, leaves every other cell. -/
theorem pxGet_foldl_plot_of_notMem (cells : List Nat) (hlt : ∀ k ∈ cells, k < 2048) (acc : Surface × Bool) {j : Nat}
    (hj : j ∉ cells) : pxGet (cells.foldl (fun acc k => plot k acc) acc).1 j = pxGet acc.1 j := by
  induction cells generalizing acc with
  | nil => rfl
  | cons k rest ih =>
    obtain ⟨hjk, hrest⟩ := not_or.1 (mt List.mem_cons.2 hj)
    calc pxGet (List.foldl (fun acc k => plot k acc) acc (k :: rest)).1 j
        = pxGet (plot k acc).1 j := ih (fun c hc => hlt c (List.mem_cons_of_mem _ hc)) _ hrest
      _ = pxGet acc.1 j := by
        simp [plot, pxGet_pxSet _ _ _ (hlt k List.mem_cons_self), hjk]

/-- A blit of any number of rows leaves every cell that the sprite does not cover. -/
theorem pxGet_blit_of_notMem (x y : Byte) (sprite : List Byte) (px : Surface) {j : Nat}
    (hj : j ∉ coveredCells x y sprite.length) : pxGet (blit x y sprite px).1 j = pxGet px j := by
  have hsub : ∀ k ∈ litCells x y 0 sprite, k ∈ coveredCells x y sprite.length := by
    intro k hk
    obtain ⟨d, col, hd, hcol, -, rfl⟩ := mem_litCells.1 hk
    exact mem_coveredCells.2 ⟨d, col, hd, hcol, by rw [Nat.zero_add]⟩
  have hlt : ∀ k ∈ litCells x y 0 sprite, k < 2048 := by
    intro k hk
    obtain ⟨row, col, -, -, rfl⟩ := mem_coveredCells.1 (hsub k hk)
    exact pixelIndex_lt ..
  rw [blit, drawRows_eq_foldl]
  exact pxGet_foldl_plot_of_notMem _ hlt _ fun h => hj (hsub j h)

end Sys2Proof.Machine
end

section
/-! SUPPORT. The inversion lemma of `exec`: every instruction answers a next state, and there are seven ways it can end. -/

namespace Sys2Proof.Machine

/-- The pieces an instruction computes on, as against those that say where and how a step ends. -/
def Piece.isOperand : Piece → Prop
  | .v _ | .i | .delayTimer | .soundTimer | .mem _ | .drawFlag | .pixel _ | .rndCalls | .freeDraws => True
  | .pc | .stack _ | .sp | .currentOpcode | .key _ | .halted | .result => False

/-- The operands among the pieces of an instruction's row of the access matrix (10_state.md R44). -/
def operandRow (i : Instr) (s : State) (p : Piece) : Prop := matrixRow i s p ∧ p.isOperand

/-- How the instruction `i` can end at `s`. In the first two cases `u` is the state after its operands are written. -/
inductive Ends (i : Instr) (s : State) : State → Prop
  | advances (u : State) (frame : SameBut (operandRow i s) s u) (memory_wf : s.memory.wf → u.memory.wf) :
      Ends i s (u.advance.latchResult .ok)
  | raises (e : Error) (u : State) (frame : SameBut (operandRow i s) s u) (memory_wf : s.memory.wf → u.memory.wf)
      (halts : matrixRow i s .halted) : Ends i s ((u.latchHalted e).latchResult (.err e))
  | pends (x : RegIdx) (instr : i = .ldk x) (idle : s.pressedKeys = []) : Ends i s (s.latchResult .pending)
  | skips (c : Bool) : Ends i s ((s.skipIf c).latchResult .ok)
  | jumps (a : Word) (a_le : a.toNat ≤ 0x10FE) : Ends i s ((s.writePc a).latchResult .ok)
  | calls (nnn : Addr12) (instr : i = .call nnn) (room : s.sp.val < 16) :
      Ends i s (((s.push s.pc).writePc (zextAddr nnn)).latchResult .ok)
  | returns (instr : i = .ret) (used : 0 < s.sp.val) : Ends i s ((s.pop.writePc (s.pop.topEntry + 2)).latchResult .ok)

/-! ### The shared operations -/

section
variable {i : Instr} {s : State}

theorem setAndAdvance_ends (x : RegIdx) (b : Byte) (hx : operandRow i s (.v x)) :
    ∃ t, s.setAndAdvance x b = .next t ∧ Ends i s t :=
  ⟨_, rfl, .advances _ ((SameBut.refl _ s).writeV x b hx) id⟩

theorem flagOpAndAdvance_ends (flag result : Byte → Byte → Byte) (x y : RegIdx) (hx : operandRow i s (.v x))
    (hf : operandRow i s (.v regVF)) : ∃ t, s.flagOpAndAdvance flag result x y = .next t ∧ Ends i s t :=
  ⟨_, rfl, .advances (s.flagThenResult flag result x y)
    (((SameBut.refl _ s).writeV regVF _ hf).writeV x _ hx) id⟩

theorem skipOnKey_ends (x : RegIdx) (pressed : Bool) (hh : matrixRow i s .halted) :
    ∃ t, s.skipOnKey x pressed = .next t ∧ Ends i s t := by
  by_cases hk : (s.readV x).toNat < 16
  · exact ⟨_, s.skipOnKey_key x pressed ⟨_, hk⟩ rfl, .skips _⟩
  · exact ⟨_, s.skipOnKey_error x pressed (by omega), .raises _ s (.refl _ s) id hh⟩

theorem storeAtI_ends (bs : List Byte) (hb : bs ≠ []) (hm : ∀ k, k < bs.length → operandRow i s (.mem (s.ea k)))
    (hd : operandRow i s .freeDraws) (hh : matrixRow i s .halted) :
    ∃ t, s.storeAtI bs = .next t ∧ Ends i s t := by
  have covered : ∀ a, s.i.toNat ≤ a → a < s.i.toNat + bs.length → operandRow i s (.mem a) := by
    intro a h1 h2
    have := hm (a - s.i.toNat) (by omega)
    rwa [State.ea_eq, Nat.add_sub_cancel' h1] at this
  by_cases hin : s.i.toNat + bs.length ≤ 0x1000
  · obtain ⟨m, hs, hwf, hread⟩ := s.storeAtI_ok bs (.inr hin)
    refine ⟨_, hs, .advances _ ((SameBut.refl _ s).writeMemory m fun a => ?_) hwf⟩
    by_cases ha : s.i.toNat ≤ a ∧ a < s.i.toNat + bs.length
    · exact .inr (covered a ha.1 ha.2)
    · exact .inl (by rw [hread, if_neg ha])
  by_cases hi : s.i.toNat ≤ 0xFFF
  · have hspec := scribbleBytes_spec s.memory s.freeDraws s.i.toNat bs.length
    refine ⟨_, s.storeAtI_mid bs hi (by omega), .raises _ _
      (((SameBut.refl _ s).writeMemory _ fun a => ?_).countDraw hd) hspec.1 hh⟩
    by_cases ha : s.i.toNat ≤ a ∧ a < s.i.toNat + bs.length
    · exact .inr (covered a ha.1 ha.2)
    · exact .inl (hspec.2 a fun h => ha ⟨h.1, h.2.1⟩)
  · exact ⟨_, s.storeAtI_first bs hb (by omega), .raises _ s (.refl _ s) id hh⟩

end

/-! ### The instructions with an ending of their own -/

theorem execRet_ends (s : State) : ∃ t, execRet s = .next t ∧ Ends .ret s t := by
  by_cases h : s.sp = 0
  · exact ⟨_, if_pos h, .raises _ s (.refl _ s) id (.inr rfl)⟩
  · exact ⟨_, if_neg h, .returns rfl (Fin.pos_iff_ne_zero.2 h)⟩

theorem execCall_ends (nnn : Addr12) (s : State) : ∃ t, execCall nnn s = .next t ∧ Ends (.call nnn) s t := by
  by_cases h : s.sp = 16
  · exact ⟨_, if_pos h, .raises _ s (.refl _ s) id (.inr (.inr rfl))⟩
  · exact ⟨_, if_neg h, .calls nnn rfl (by omega)⟩

theorem execJpv0_ends (nnn : Addr12) (s : State) : ∃ t, execJpv0 nnn s = .next t ∧ Ends (.jpv0 nnn) s t := by
  refine ⟨_, rfl, .jumps _ ?_⟩
  rw [BitVec.toNat_add, zextByte_toNat, zextAddr_toNat]
  omega

theorem execCls_ends (s : State) : ∃ t, execCls s = .next t ∧ Ends .cls s t :=
  ⟨_, rfl, .advances _ (((SameBut.refl _ s).writePx pxClear fun k => .inr ⟨.inr ⟨k, rfl⟩, trivial⟩).writeDrawFlag true
    ⟨.inl rfl, trivial⟩) id⟩

theorem execRnd_ends (x : RegIdx) (nn : Byte) (s : State) : ∃ t, execRnd x nn s = .next t ∧ Ends (.rnd x nn) s t :=
  ⟨_, rfl, .advances _ (((SameBut.refl _ s).countRnd ⟨.inr rfl, trivial⟩).writeV x _ ⟨.inl rfl, trivial⟩) id⟩

theorem execLdk_ends (x : RegIdx) (s : State) : ∃ t, execLdk x s = .next t ∧ Ends (.ldk x) s t := by
  unfold execLdk
  cases h : s.pressedKeys with
  | nil => exact ⟨_, rfl, .pends x rfl h⟩
  | cons k rest =>
    exact ⟨_, rfl, .advances _ (((SameBut.refl _ s).countDraw ⟨.inr rfl, trivial⟩).writeV x _ ⟨.inl rfl, trivial⟩) id⟩

/-- A byte of memory is loaded into each register that FX65 names, and into no other. -/
theorem SameBut.loadFirst {s : State} (x : RegIdx) (bs : List Byte) (hb : bs.length = x.val + 1) :
    SameBut (operandRow (.ldm x) s) s (s.loadV bs) :=
  (SameBut.refl _ s).loadV bs fun r hr => ⟨.inl ⟨r, Nat.le_of_lt_succ (hr.trans_eq hb), rfl⟩, trivial⟩

theorem execLdm_ends (x : RegIdx) (s : State) : ∃ t, execLdm x s = .next t ∧ Ends (.ldm x) s t := by
  have halts : matrixRow (.ldm x) s .halted := .inr (.inl rfl)
  by_cases hin : s.i.toNat + x.val ≤ 0xFFF
  · exact ⟨_, execLdm_ok s x hin, .advances _ (SameBut.loadFirst x _ (by simp)) (by simp)⟩
  by_cases hi : s.i.toNat ≤ 0xFFF
  · exact ⟨_, execLdm_mid s x hi (by omega), .raises _ _
      ((SameBut.loadFirst x _ (by simp)).countDraw ⟨.inr (.inr rfl), trivial⟩) (by simp) halts⟩
  · exact ⟨_, execLdm_first s x (by omega), .raises _ s (.refl _ s) id halts⟩

theorem execDrw_ends (x y : RegIdx) (n : Nat) (s : State) : ∃ t, execDrw x y n s = .next t ∧ Ends (.drw x y n) s t := by
  have halts : matrixRow (.drw x y n) s .halted := .inr (.inr (.inr (.inl rfl)))
  have draws : operandRow (.drw x y n) s .freeDraws := ⟨.inr (.inr (.inr (.inr rfl))), trivial⟩
  have flag : operandRow (.drw x y n) s .drawFlag := ⟨.inr (.inl rfl), trivial⟩
  have vf : operandRow (.drw x y n) s (.v regVF) := ⟨.inl rfl, trivial⟩
  have covered : ∀ k ∈ coveredCells (s.readV x) (s.readV y) n, operandRow (.drw x y n) s (.pixel k) := by
    intro k hk
    obtain ⟨row, col, hrow, hcol, rfl⟩ := mem_coveredCells.1 hk
    exact ⟨.inr (.inr (.inl ⟨row, col, hrow, hcol, rfl⟩)), trivial⟩
  by_cases hin : n = 0 ∨ s.i.toNat + n ≤ 0x1000
  · refine ⟨_, execDrw_ok s x y n hin, .advances _
      ((((SameBut.refl _ s).writePx _ fun k => ?_).writeV regVF _ vf).writeDrawFlag true flag) id⟩
    by_cases hk : k ∈ coveredCells (s.readV x) (s.readV y) n
    · exact .inr (covered k hk)
    · exact .inl (pxGet_blit_of_notMem _ _ _ _ (by simpa using hk))
  by_cases hi : s.i.toNat ≤ 0xFFF
  · refine ⟨_, execDrw_mid s x y n hi (by omega), .raises _ _
      (((((SameBut.refl _ s).writePx _ fun k => ?_).writeV regVF _ vf).writeDrawFlag _ flag).countDraw draws) id halts⟩
    by_cases hk : k ∈ coveredCells (s.readV x) (s.readV y) n
    · exact .inr (covered k hk)
    · refine .inl ?_
      rw [pxGet_pxCopy, if_neg hk]
      intro c hc
      obtain ⟨row, col, -, -, rfl⟩ := mem_coveredCells.1 hc
      exact pixelIndex_lt ..
  · exact ⟨_, execDrw_first s x y n (by omega) (by omega), .raises _ _
      (((SameBut.refl _ s).writeV regVF _ vf).countDraw draws) id halts⟩

/-! ### Every instruction -/

/-- Every instruction answers a next state, in one of the ways of `Ends`. -/
theorem exec_ends (i : Instr) (s : State) : ∃ t, exec i s = .next t ∧ Ends i s t := by
  match i with
  | .cls => exact execCls_ends s
  | .ret => exact execRet_ends s
  | .call nnn => exact execCall_ends nnn s
  | .jp nnn => exact ⟨_, rfl, .jumps (zextAddr nnn) (by rw [zextAddr_toNat]; omega)⟩
  | .jpv0 nnn => exact execJpv0_ends nnn s
  | .sei _ _ | .snei _ _ | .ser _ _ | .sner _ _ => exact ⟨_, rfl, .skips _⟩
  | .skp x | .sknp x => exact skipOnKey_ends x _ rfl
  | .ldi x _ | .addi x _ | .mov x _ | .or x _ | .and x _ | .xor x _ | .lddt x =>
    exact setAndAdvance_ends x _ ⟨rfl, trivial⟩
  | .add x y | .sub x y | .shr x y | .subn x y | .shl x y =>
    exact flagOpAndAdvance_ends _ _ x y ⟨.inl rfl, trivial⟩ ⟨.inr rfl, trivial⟩
  | .rnd x nn => exact execRnd_ends x nn s
  | .lda _ | .adda _ | .ldf _ => exact ⟨_, rfl, .advances _ ((SameBut.refl _ s).writeI _ ⟨rfl, trivial⟩) id⟩
  | .drw x y n => exact execDrw_ends x y n s
  | .ldk x => exact execLdk_ends x s
  | .stdt _ => exact ⟨_, rfl, .advances _ ((SameBut.refl _ s).writeDelay _ ⟨rfl, trivial⟩) id⟩
  | .stst _ => exact ⟨_, rfl, .advances _ ((SameBut.refl _ s).writeSound _ ⟨rfl, trivial⟩) id⟩
  | .bcd x =>
    exact storeAtI_ends (decimalDigits (s.readV x)) (by simp [decimalDigits])
      (fun k hk => ⟨.inl ⟨k, hk, rfl⟩, trivial⟩) ⟨.inr (.inr rfl), trivial⟩ (.inr (.inl rfl))
  | .stm x =>
    have hl : (s.firstRegs x).length = x.val + 1 := s.firstRegs_length x
    exact storeAtI_ends (s.firstRegs x) (List.ne_nil_of_length_eq_add_one hl)
      (fun k hk => ⟨.inl ⟨k, by omega, rfl⟩, trivial⟩) ⟨.inr (.inr rfl), trivial⟩ (.inr (.inl rfl))
  | .ldm x => exact execLdm_ends x s

/-- The inversion lemma: a next state of an instruction is one of those of `Ends`. -/
theorem ends_of_exec {i : Instr} {s t : State} (h : exec i s = .next t) : Ends i s t := by
  obtain ⟨t', ht', hends⟩ := exec_ends i s
  obtain rfl : t' = t := by rw [h] at ht'; injection ht' with ht'; exact ht'.symm
  exact hends

/-! ### The frame of an instruction (10_state.md R44) -/

theorem Ends.sameBut {i : Instr} {s t : State} (h : Ends i s t) : SameBut (mayWrite i s) s t := by
  have pc : mayWrite i s .pc := .inl rfl
  have result : mayWrite i s .result := .inr (.inl rfl)
  have row {p : Piece} (hp : matrixRow i s p) : mayWrite i s p := .inr (.inr hp)
  cases h with
  | advances u frame =>
    exact ((frame.mono fun p hp => row hp.1).writePc _ pc).latchResult _ result
  | raises e u frame _ halts =>
    exact ((frame.mono fun p hp => row hp.1).latchHalted e (row halts)).latchResult _ result
  | pends => exact (SameBut.refl _ s).latchResult _ result
  | skips c => exact ((SameBut.refl _ s).skipIf c pc).latchResult _ result
  | jumps a => exact ((SameBut.refl _ s).writePc a pc).latchResult _ result
  | calls nnn instr =>
    subst instr
    exact (((SameBut.refl _ s).push s.pc (row (.inl rfl)) fun k hk => row (.inr (.inl ⟨k, hk, rfl⟩))).writePc _
      pc).latchResult _ result
  | returns instr =>
    subst instr
    exact (((SameBut.refl _ s).pop (row (.inl rfl))).writePc _ pc).latchResult _ result

/-- Settles O46: each of the ways an instruction ends writes PC, the result and its row only. -/
theorem everyInstructionWritesOnlyItsMatrixRow : Obligations.EveryInstructionWritesOnlyItsMatrixRow :=
  fun _ _ _ h => (ends_of_exec h).sameBut

end Sys2Proof.Machine
end

section
/-! SUPPORT. The invariant: kept by every step and every move of an external agent, and true after a reset and a load. -/

namespace Sys2Proof.Machine

/-! ### What a step can do -/

/-- The inversion lemma of `step`: it runs the decoded instruction, or ends in one of the two errors of the fetch and the
decode (40_step_cycle.md R120). -/
theorem step_cases {s t : State} (h : step s = .next t) :
    s.halted = none ∧
      ((s.pc.toNat ≤ 0x0FFE ∧ ∃ i, decode s.fetchWord = .ok i ∧ exec i (s.latchOpcode s.fetchWord) = .next t) ∨
        (s.pc.toNat ≤ 0x0FFE ∧ (∃ d, decode s.fetchWord = .error d) ∧
          raise (.unknownOpcode s.fetchWord) (s.latchOpcode s.fetchWord) = .next t) ∨
        (0x0FFE < s.pc.toNat ∧ raise (.outOfBoundsFetch s.pc) s = .next t)) := by
  unfold step at h
  split at h
  · cases h
  · rename_i hh
    refine ⟨hh, ?_⟩
    split at h
    · rename_i hf
      have hpc : s.pc.toNat ≤ 0x0FFE := by simpa [State.canFetch] using hf
      split at h
      · exact .inl ⟨hpc, _, ‹_›, h⟩
      · exact .inr (.inl ⟨hpc, ⟨_, ‹_›⟩, h⟩)
    · rename_i hf
      exact .inr (.inr ⟨by simpa [State.canFetch] using hf, h⟩)

/-! ### The part of the invariant that does not speak of the latch and the result -/

/-- The first three clauses of `State.Inv`. -/
structure State.BodyInv (s : State) : Prop where
  memory_wf : s.memory.wf
  pc_le : s.pc.toNat ≤ 0x10FE
  stack_le : ∀ k : Fin 16, k.val < s.sp.val → s.stack[k].toNat ≤ 0x0FFE

theorem State.Inv.body {s : State} (h : s.Inv) : s.BodyInv := ⟨h.memory_wf, h.pc_le, h.stack_le⟩

section
variable {s : State}

theorem State.BodyInv.completed (h : s.BodyInv) (hh : s.halted = none) {r : StepResult} (hr : ∀ e, r ≠ .err e) :
    (s.latchResult r).Inv where
  memory_wf := h.memory_wf
  pc_le := h.pc_le
  stack_le := h.stack_le
  halted_result e he := by rw [State.latchResult_halted, hh] at he; cases he
  result_halted e he := absurd (Option.some.inj he) (hr e)

theorem State.BodyInv.raised (h : s.BodyInv) (e : Error) : ((s.latchHalted e).latchResult (.err e)).Inv where
  memory_wf := h.memory_wf
  pc_le := h.pc_le
  stack_le := h.stack_le
  halted_result e' he := by cases he; rfl
  result_halted e' he := by cases he; rfl

theorem State.BodyInv.writePc (h : s.BodyInv) {a : Word} (ha : a.toNat ≤ 0x10FE) : (s.writePc a).BodyInv :=
  ⟨h.memory_wf, ha, h.stack_le⟩

/-- PC may move by a few bytes from where an instruction was fetched. -/
theorem State.BodyInv.skipIf (h : s.BodyInv) (hpc : s.pc.toNat ≤ 0x0FFE) (c : Bool) : (s.skipIf c).BodyInv := by
  cases c
  · exact h.writePc (by bv_omega)
  · exact h.writePc (by bv_omega)

theorem State.BodyInv.push (h : s.BodyInv) (room : s.sp.val < 16) {ret : Word} (hret : ret.toNat ≤ 0x0FFE) :
    (s.push ret).BodyInv where
  memory_wf := by rw [State.push_memory]; exact h.memory_wf
  pc_le := by rw [State.push_pc]; exact h.pc_le
  stack_le k hk := by
    rw [State.push_sp s ret room] at hk
    rw [State.push_stack s ret room, Fin.getElem_fin, Vector.getElem_set]
    split
    · exact hret
    · exact h.stack_le k (by omega)

theorem State.BodyInv.pop (h : s.BodyInv) : s.pop.BodyInv :=
  ⟨h.memory_wf, h.pc_le, fun k hk => h.stack_le k (by rw [State.pop_sp] at hk; omega)⟩

/-- The entry that a return reads is an entry in use. -/
theorem State.BodyInv.topEntry_le (h : s.BodyInv) (used : 0 < s.sp.val) : s.pop.topEntry.toNat ≤ 0x0FFE := by
  have hk : s.sp.val - 1 < 16 := by omega
  rw [s.topEntry_pop ⟨_, hk⟩ (Nat.sub_add_cancel used)]
  exact h.stack_le _ (Nat.sub_lt used Nat.one_pos)

theorem State.BodyInv.writeOperands {i : Instr} {u : State} (h : s.BodyInv) (frame : SameBut (operandRow i s) s u)
    (memory_wf : s.memory.wf → u.memory.wf) : u.BodyInv where
  memory_wf := memory_wf h.memory_wf
  pc_le := by rw [frame .pc fun hp => hp.2]; exact h.pc_le
  stack_le k hk := by
    rw [frame .sp fun hp => hp.2] at hk
    rw [frame (.stack k) fun hp => hp.2]
    exact h.stack_le k hk

end

/-! ### Every step -/

/-- An instruction that was fetched from memory keeps the invariant, however it ends. -/
theorem Ends.inv {i : Instr} {s t : State} (h : Ends i s t) (hs : s.BodyInv) (hh : s.halted = none)
    (hpc : s.pc.toNat ≤ 0x0FFE) : t.Inv := by
  cases h with
  | advances u frame memory_wf =>
    have hu := hs.writeOperands frame memory_wf
    have hupc : u.pc = s.pc := frame .pc fun hp => hp.2
    have huh : u.halted = none := (frame .halted fun hp => hp.2).trans hh
    exact (hu.skipIf (by rwa [hupc]) false).completed huh nofun
  | raises e u frame memory_wf => exact (hs.writeOperands frame memory_wf).raised e
  | pends => exact hs.completed hh nofun
  | skips c => exact (hs.skipIf hpc c).completed (by rwa [State.skipIf_halted]) nofun
  | jumps a a_le => exact (hs.writePc a_le).completed hh nofun
  | calls nnn _ room =>
    refine ((hs.push room hpc).writePc ?_).completed (by rwa [State.writePc_halted, State.push_halted]) nofun
    rw [zextAddr_toNat]; omega
  | returns _ used =>
    refine (hs.pop.writePc ?_).completed hh nofun
    have := hs.topEntry_le used
    bv_omega

/-- Settles O5: a step runs a fetched instruction, and `Ends.inv` says that this keeps the invariant, or it ends in an error of
the fetch or the decode, which writes the latch and the result alike. -/
theorem everyStepKeepsTheInvariant : Obligations.EveryStepKeepsTheInvariant := by
  intro s t hs h
  have hlatched : (s.latchOpcode s.fetchWord).BodyInv := ⟨hs.memory_wf, hs.pc_le, hs.stack_le⟩
  obtain ⟨hh, ⟨hpc, i, -, hexec⟩ | ⟨-, -, hraise⟩ | ⟨-, hraise⟩⟩ := step_cases h
  · exact (ends_of_exec hexec).inv hlatched hh hpc
  · cases hraise
    exact hlatched.raised _
  · cases hraise
    exact hs.body.raised _

/-! ### Every run -/

/-- Memory after a reset has its canonical form and holds FONT, then zeros. -/
theorem State.resetAgain_memory_spec (s : State) (font : Vector Byte 80) (px : Surface) :
    (s.resetAgain font px).memory.wf ∧
      ∀ k, (s.resetAgain font px).memory.read k = if k < 80 then font.toList.getD k 0 else Memory.unlisted k := by
  obtain ⟨hwf, hread⟩ := Memory.place_spec [] 0 font.toList (by simp)
  refine ⟨hwf Memory.wf_reset, fun k => (hread k).trans ?_⟩
  simp [Memory.read]

theorem State.resetAgain_bodyInv (s : State) (font : Vector Byte 80) (px : Surface) : (s.resetAgain font px).BodyInv where
  memory_wf := (s.resetAgain_memory_spec font px).1
  pc_le := show (0x200 : Word).toNat ≤ 0x10FE by decide
  stack_le _ hk := absurd hk (Nat.not_lt_zero _)

/-- What the loader answers when it succeeds. -/
theorem load_cases {rom : List Byte} {s t : State} (h : load rom s = .ok t) :
    rom.length ≤ 4096 - 512 ∧ t = s.writeMemory (s.memory.place Config.programBase rom) := by
  unfold load at h
  split at h
  · exact ⟨‹_›, by cases h; rfl⟩
  · cases h

/-- A state loaded after a reset satisfies the invariant: no step has been taken, so latch and result hold nothing. -/
theorem inv_of_load {s t : State} {font : Vector Byte 80} {px : Surface} {rom : List Byte}
    (h : load rom (s.resetAgain font px) = .ok t) : t.Inv := by
  obtain ⟨hlen, rfl⟩ := load_cases h
  have hs := s.resetAgain_bodyInv font px
  exact {
    memory_wf := (Memory.place_spec _ Config.programBase rom (by rw [Config.programBase]; omega)).1 hs.memory_wf
    pc_le := hs.pc_le
    stack_le := hs.stack_le
    halted_result := nofun
    result_halted := nofun }

/-- No move of an external agent writes a piece that the invariant speaks of (10_state.md R40). -/
theorem Move.apply_inv (m : Move) {s : State} (h : s.Inv) : (m.apply s).Inv := by
  obtain ⟨hm, hpc, hstack, hr, hh⟩ := h
  cases m <;> exact ⟨hm, hpc, hstack, hr, hh⟩

/-- Settles O6, by induction on the run. -/
theorem everyReachableStateSatisfiesTheInvariant : Obligations.EveryReachableStateSatisfiesTheInvariant := by
  intro font s h
  induction h with
  | launch s t px rom h => exact inv_of_load h
  | step s t _ h ih => exact everyStepKeepsTheInvariant s t ih h
  | move s m _ ih => exact m.apply_inv ih

/-! ### Reset and the moves of the host -/

/-- Settles O1: the values are those of `State.reset`, and memory is read by `State.resetAgain_memory_spec`. -/
theorem resetLeavesTheStatedValues : Obligations.ResetLeavesTheStatedValues := by
  intro s font px t
  have hread := (s.resetAgain_memory_spec font px).2
  have hfont (a : Fin 80) : t.memory.read a.val = font[a] := by
    rw [hread, if_pos a.isLt]; simp
  have hzero (a : Nat) (ha : 0x050 ≤ a) : t.memory.read a = 0 := by
    rw [hread, if_neg (by omega)]
    exact List.getD_eq_default _ _ ha
  have hv (x : RegIdx) : t.readV x = 0 := Vector.getElem_replicate ..
  have hstack (k : Fin 16) : t.stack[k] = 0 := Vector.getElem_replicate ..
  have hkey (k : Fin 16) : t.key k = false := Vector.getElem_replicate ..
  exact ⟨rfl, rfl, rfl, hfont, fun a ha _ => hzero a ha, hv, hstack, rfl, rfl, hkey, rfl, rfl, rfl⟩

theorem tick_toNat (b : Byte) : (tick b).toNat = b.toNat - 1 := by
  unfold tick
  split
  · subst_vars; rfl
  · have : b.toNat ≠ 0 := fun h => ‹¬ b = 0› (BitVec.eq_of_toNat_eq h)
    rw [BitVec.toNat_sub_of_le (by rw [BitVec.le_def]; simp; omega)]
    rfl

/-- Settles O3: each move is one update, and its rule says what it writes. -/
theorem agentMovesChangeOnePieceEach : Obligations.AgentMovesChangeOnePieceEach := fun s =>
  ⟨fun k down => ⟨by simp [Move.apply, State.key], (SameBut.refl _ s).setKey k down rfl⟩,
    ⟨tick_toNat _, (SameBut.refl _ s).writeDelay _ rfl⟩,
    ⟨tick_toNat _, (SameBut.refl _ s).writeSound _ rfl⟩,
    rfl, rfl, rfl, (SameBut.refl _ s).writeDrawFlag false rfl⟩

end Sys2Proof.Machine
end

section
/-! SUPPORT. Which instructions write VF, and what they leave in it (10_state.md R22). -/

namespace Sys2Proof.Machine

/-! ### The flags -/

theorem lowBitFlag_eq (a : Byte) : lowBitFlag a = 0 ∨ lowBitFlag a = 1 := by
  rcases Nat.mod_two_eq_zero_or_one a.toNat with h | h
  · exact .inl (BitVec.eq_of_toNat_eq (by rw [lowBitFlag_toNat, h]; rfl))
  · exact .inr (BitVec.eq_of_toNat_eq (by rw [lowBitFlag_toNat, h]; rfl))

theorem highBitFlag_eq (a : Byte) : highBitFlag a = 0 ∨ highBitFlag a = 1 := by
  have h : a.toNat / 128 = 0 ∨ a.toNat / 128 = 1 := by omega
  rcases h with h | h
  · exact .inl (BitVec.eq_of_toNat_eq (by rw [highBitFlag_toNat, h]; rfl))
  · exact .inr (BitVec.eq_of_toNat_eq (by rw [highBitFlag_toNat, h]; rfl))

/-- Where X is not 15, VF keeps the flag that the first of the two statements writes. -/
theorem readV_vf_of_flagOpAndAdvance {s t : State} {flag result : Byte → Byte → Byte} {x y : RegIdx} (hx : x ≠ 15)
    (h : s.flagOpAndAdvance flag result x y = .next t) : t.readV 15 = flag (s.readV x) (s.readV y) := by
  cases h
  exact (s.readV_flagThenResult flag result x y 15).trans ((if_neg hx.symm).trans (if_pos rfl))

/-- A draw that completes leaves its collision flag in VF; one that does not complete has the result Err. -/
theorem readV_vf_of_execDrw {s t : State} {x y : RegIdx} {n : Nat} (h : execDrw x y n s = .next t)
    (hok : t.result = some .ok) : ∃ c, t.readV 15 = flagByte c := by
  by_cases hin : n = 0 ∨ s.i.toNat + n ≤ 0x1000
  · rw [execDrw_ok s x y n hin] at h
    cases h
    exact ⟨_, State.readV_writeV_same _ _ _⟩
  by_cases hi : s.i.toNat ≤ 0xFFF
  · rw [execDrw_mid s x y n hi (by omega)] at h
    cases h
    cases hok
  · rw [execDrw_first s x y n (by omega) (by omega)] at h
    cases h
    cases hok

/-! ### The instructions with VF in their row -/

/-- VF is in the row of the six flag writers, and of an instruction that names `V[15]` as its destination. FX65 names `V[0]` to
`V[X]`, and so VF with X = 15 only. -/
theorem vf_mem_matrixRow {i : Instr} {s : State} (h : matrixRow i s (.v 15)) :
    (∃ x y n, i ∈ [Instr.add x y, .sub x y, .shr x y, .subn x y, .shl x y, .drw x y n]) ∨
      ∃ y nn, i ∈ [Instr.ldi 15 nn, .addi 15 nn, .mov 15 y, .or 15 y, .and 15 y, .xor 15 y, .rnd 15 nn, .lddt 15,
        .ldk 15, .ldm 15] := by
  cases i with
  | add x y | sub x y | shr x y | subn x y | shl x y => exact .inl ⟨x, y, 0, by simp⟩
  | drw x y n => exact .inl ⟨x, y, n, by simp⟩
  | ldi x nn | addi x nn =>
    have hx : 15 = x := by simpa [matrixRow] using h
    exact .inr ⟨0, nn, by simp [← hx]⟩
  | mov x y | or x y | and x y | xor x y =>
    have hx : 15 = x := by simpa [matrixRow] using h
    exact .inr ⟨y, 0, by simp [← hx]⟩
  | rnd x nn =>
    have hx : 15 = x := by simpa [matrixRow] using h
    exact .inr ⟨0, nn, by simp [← hx]⟩
  | lddt x | ldk x =>
    have hx : 15 = x := by simpa [matrixRow] using h
    exact .inr ⟨0, 0, by simp [← hx]⟩
  | ldm x =>
    have hx : 15 ≤ x := by simpa [matrixRow] using h
    obtain rfl : x = 15 := le_antisymm (Fin.le_last x) hx
    exact .inr ⟨0, 0, by simp⟩
  | _ => simp [matrixRow] at h

/-- Settles O31: what the six flag writers leave in VF, and `EveryInstructionWritesOnlyItsMatrixRow` for every other
instruction. -/
theorem onlyTheSixFlagWritersTouchVf : Obligations.OnlyTheSixFlagWritersTouchVf := by
  refine ⟨fun s t x y i hi hx h => ?_, fun s t x y n h hok => ?_, fun s t i h hvf => ?_⟩
  · simp only [List.mem_cons, List.not_mem_nil, or_false] at hi
    obtain rfl | rfl | rfl | rfl | rfl := hi
    · rw [readV_vf_of_flagOpAndAdvance hx h]; exact flagByte_eq _
    · rw [readV_vf_of_flagOpAndAdvance hx h]; exact flagByte_eq _
    · rw [readV_vf_of_flagOpAndAdvance hx h]; exact lowBitFlag_eq _
    · rw [readV_vf_of_flagOpAndAdvance hx h]; exact flagByte_eq _
    · rw [readV_vf_of_flagOpAndAdvance hx h]; exact highBitFlag_eq _
  · obtain ⟨c, hc⟩ := readV_vf_of_execDrw h hok
    rw [hc]; exact flagByte_eq c
  · have hrow : mayWrite i s (.v 15) := by
      by_contra hw
      exact hvf (everyInstructionWritesOnlyItsMatrixRow i s t h (.v 15) hw)
    exact vf_mem_matrixRow (by simpa [mayWrite] using hrow)

end Sys2Proof.Machine
end

section
/-! SUPPORT. Two runs of one instruction, at states that differ in what the host sees or sets: current_opcode, the sound timer,
draw_flag and the keypad. -/

namespace Sys2Proof.Machine

/-- The pieces that no instruction computes with, and the keypad. -/
structure HostView where
  opcode : Word
  sound : Byte
  draw : Bool
  keys : Vector Bool 16

def State.hostView (s : State) : HostView := ⟨s.currentOpcode, s.soundTimer, s.drawFlag, s.keypad⟩

/-- The state with another host view. -/
def State.withHost (s : State) (h : HostView) : State :=
  { s with currentOpcode := h.opcode, soundTimer := h.sound, drawFlag := h.draw, keypad := h.keys }

@[simp] theorem State.withHost_sp (s : State) (h : HostView) : (s.withHost h).sp = s.sp := rfl
@[simp] theorem State.ea_withHost (s : State) (h : HostView) (k : Nat) : (s.withHost h).ea k = s.ea k := rfl
@[simp] theorem State.firstAccessOk_withHost (s : State) (h : HostView) :
    (s.withHost h).firstAccessOk = s.firstAccessOk := rfl
@[simp] theorem State.withHost_memory (s : State) (h : HostView) : (s.withHost h).memory = s.memory := rfl
@[simp] theorem State.readV_withHost (s : State) (h : HostView) (x : RegIdx) : (s.withHost h).readV x = s.readV x := rfl
theorem State.push_withHost (s : State) (h : HostView) (ret : Word) :
    (s.withHost h).push ret = (s.push ret).withHost h := by
  unfold State.push
  rw [apply_dite (State.withHost · h)]
  rfl

theorem State.key_withHost {s : State} {h : HostView} (hk : h.keys = s.keypad) : (s.withHost h).key = s.key :=
  funext fun k => State.key_congr hk k

theorem State.pressedKeys_withHost {s : State} {h : HostView} (hk : h.keys = s.keypad) :
    (s.withHost h).pressedKeys = s.pressedKeys := by
  rw [State.pressedKeys, State.key_withHost hk, State.pressedKeys]

theorem State.loadV_withHost (s : State) (h : HostView) (bs : List Byte) :
    (s.withHost h).loadV bs = (s.loadV bs).withHost h := by
  simp only [State.loadV, State.withHost]

theorem State.scribbleV_withHost (s : State) (h : HostView) (count : Nat) :
    (s.withHost h).scribbleV count = (s.scribbleV count).withHost h := by
  simp only [State.scribbleV, State.loadV, State.countDraw, State.withHost]

/-- The second value of a piece is the one written in both runs, or it is kept in both. -/
def WrittenOrKept {α : Type} (before after before' after' : α) : Prop :=
  after' = after ∨ (after = before ∧ after' = before')

/-- The outcomes `o` at `s` and `o'` at `s` with the host view `h` differ in the host view only, where each piece keeps its own
value or takes the one written. -/
def SameRun (s : State) (h : HostView) (o o' : Outcome) : Prop :=
  ∃ (t : State) (b : Byte) (d : Bool), o = .next t ∧ o' = .next (t.withHost ⟨h.opcode, b, d, h.keys⟩) ∧
    WrittenOrKept s.soundTimer t.soundTimer h.sound b ∧ WrittenOrKept s.drawFlag t.drawFlag h.draw d

section
variable {s : State} {h : HostView} {t : State}

/-- A run that leaves the sound timer and draw_flag. -/
theorem SameRun.kept (hb : t.soundTimer = s.soundTimer) (hd : t.drawFlag = s.drawFlag) :
    SameRun s h (.next t) (.next (t.withHost h)) :=
  ⟨t, h.sound, h.draw, rfl, rfl, .inr ⟨hb, rfl⟩, .inr ⟨hd, rfl⟩⟩

/-- A run that writes draw_flag. -/
theorem SameRun.drawWritten (hb : t.soundTimer = s.soundTimer) :
    SameRun s h (.next t) (.next (t.withHost { h with draw := t.drawFlag })) :=
  ⟨t, h.sound, t.drawFlag, rfl, rfl, .inr ⟨hb, rfl⟩, .inl rfl⟩

/-- A run that writes the sound timer. -/
theorem SameRun.soundWritten (hd : t.drawFlag = s.drawFlag) :
    SameRun s h (.next t) (.next (t.withHost { h with sound := t.soundTimer })) :=
  ⟨t, t.soundTimer, h.draw, rfl, rfl, .inl rfl, .inr ⟨hd, rfl⟩⟩

theorem SameRun.advanced (hb : t.soundTimer = s.soundTimer) (hd : t.drawFlag = s.drawFlag) :
    SameRun s h (finish t.advance) (finish (t.withHost h).advance) :=
  .kept hb hd

theorem SameRun.raised (e : Error) (hb : t.soundTimer = s.soundTimer) (hd : t.drawFlag = s.drawFlag) :
    SameRun s h (raise e t) (raise e (t.withHost h)) :=
  .kept hb hd

/-- Both runs end in the same error, with the same test of what it leaves. -/
theorem SameRun.raiseIf (e : Error) (c : Bool) {u u' v v' : State} (hu : SameRun s h (raise e u) (raise e u'))
    (hv : SameRun s h (raise e v) (raise e v')) :
    SameRun s h (raise e (if c then u else v)) (raise e (if c then u' else v')) := by
  cases c
  · exact hv
  · exact hu

/-! ### The instructions that test the state -/

theorem execRet_sameRun : SameRun s h (execRet s) (execRet (s.withHost h)) := by
  unfold execRet
  rw [State.withHost_sp]
  split
  · exact .kept rfl rfl
  · exact .kept rfl rfl

theorem execCall_sameRun (nnn : Addr12) : SameRun s h (execCall nnn s) (execCall nnn (s.withHost h)) := by
  unfold execCall
  rw [State.withHost_sp, State.push_withHost]
  split
  · exact .kept rfl rfl
  · exact .kept (State.push_soundTimer ..) (State.push_drawFlag ..)

theorem skipIf_sameRun (c : Bool) : SameRun s h (finish (s.skipIf c)) (finish ((s.withHost h).skipIf c)) := by
  cases c
  · exact .kept rfl rfl
  · exact .kept rfl rfl

theorem skipOnKey_sameRun (x : RegIdx) (pressed : Bool) (hk : h.keys = s.keypad) :
    SameRun s h (s.skipOnKey x pressed) ((s.withHost h).skipOnKey x pressed) := by
  unfold State.skipOnKey
  rw [State.readV_withHost, State.key_withHost hk]
  cases keyOf (s.readV x) with
  | none => exact .kept rfl rfl
  | some k => exact skipIf_sameRun _

theorem execLdk_sameRun (x : RegIdx) (hk : h.keys = s.keypad) :
    SameRun s h (execLdk x s) (execLdk x (s.withHost h)) := by
  unfold execLdk
  rw [State.pressedKeys_withHost hk]
  cases s.pressedKeys with
  | nil => exact .kept rfl rfl
  | cons k rest => exact .kept rfl rfl

theorem storeAtI_sameRun (bs : List Byte) : SameRun s h (s.storeAtI bs) ((s.withHost h).storeAtI bs) := by
  simp only [State.storeAtI, State.withHost_memory, State.ea_withHost, State.firstAccessOk_withHost]
  cases writeBytes s.memory (s.ea 0) bs with
  | ok m => exact .kept rfl rfl
  | error e => exact .raiseIf e _ (.kept rfl rfl) (.kept rfl rfl)

theorem execLdm_sameRun (x : RegIdx) : SameRun s h (execLdm x s) (execLdm x (s.withHost h)) := by
  simp only [execLdm, State.withHost_memory, State.ea_withHost, State.firstAccessOk_withHost, State.loadV_withHost,
    State.scribbleV_withHost]
  cases readBytes s.memory (s.ea 0) (regCount x) with
  | ok bs => exact .advanced (State.loadV_soundTimer ..) (State.loadV_drawFlag ..)
  | error e => exact .raiseIf e _ (.raised e (State.scribbleV_soundTimer ..) (State.scribbleV_drawFlag ..)) (.kept rfl rfl)

theorem execDrw_sameRun (x y : RegIdx) (n : Nat) : SameRun s h (execDrw x y n s) (execDrw x y n (s.withHost h)) := by
  simp only [execDrw, State.withHost_memory, State.ea_withHost, State.firstAccessOk_withHost, State.readV_withHost]
  cases readBytes s.memory (s.ea 0) n with
  | ok sprite => exact .drawWritten rfl
  | error e => exact .raiseIf e _ (.drawWritten rfl) (.kept rfl rfl)

end

/-! ### Every instruction -/

/-- Every instruction does the same under another host view, with the same keypad where it is one of the three that read it. -/
theorem exec_sameRun (i : Instr) (s : State) (h : HostView)
    (hk : (∃ x, i ∈ [Instr.skp x, .sknp x, .ldk x]) → h.keys = s.keypad) :
    SameRun s h (exec i s) (exec i (s.withHost h)) := by
  match i with
  | .cls => exact .drawWritten rfl
  | .ret => exact execRet_sameRun
  | .call nnn => exact execCall_sameRun nnn
  | .sei _ _ | .snei _ _ | .ser _ _ | .sner _ _ => exact skipIf_sameRun _
  | .skp x | .sknp x => exact skipOnKey_sameRun x _ (hk ⟨x, by simp⟩)
  | .jp _ | .jpv0 _ | .ldi _ _ | .addi _ _ | .mov _ _ | .or _ _ | .and _ _ | .xor _ _ | .add _ _ | .sub _ _ | .shr _ _
  | .subn _ _ | .shl _ _ | .lda _ | .rnd _ _ | .lddt _ | .stdt _ | .adda _ | .ldf _ => exact .kept rfl rfl
  | .drw x y n => exact execDrw_sameRun x y n
  | .ldk x => exact execLdk_sameRun x (hk ⟨x, by simp⟩)
  | .stst _ => exact .soundWritten rfl
  | .bcd x => exact storeAtI_sameRun (decimalDigits (s.readV x))
  | .stm x => exact storeAtI_sameRun (s.firstRegs x)
  | .ldm x => exact execLdm_sameRun x

/-! ### What no instruction writes -/

theorem not_mayWrite_currentOpcode (i : Instr) (s : State) : ¬ mayWrite i s .currentOpcode := by
  cases i <;> simp [mayWrite, matrixRow]

theorem not_mayWrite_key (i : Instr) (s : State) (k : Fin 16) : ¬ mayWrite i s (.key k) := by
  cases i <;> simp [mayWrite, matrixRow]

section
variable {i : Instr} {s t : State} (ht : exec i s = .next t)
include ht

theorem exec_currentOpcode : t.currentOpcode = s.currentOpcode :=
  (ends_of_exec ht).sameBut .currentOpcode (not_mayWrite_currentOpcode i s)

theorem exec_keypad : t.keypad = s.keypad :=
  (ends_of_exec ht).sameBut.keypad_eq (not_mayWrite_key i s)

/-- `exec_sameRun`, at a state whose own run is known. -/
theorem exec_withHost (h : HostView) (hk : (∃ x, i ∈ [Instr.skp x, .sknp x, .ldk x]) → h.keys = s.keypad) :
    ∃ b d, exec i (s.withHost h) = .next (t.withHost ⟨h.opcode, b, d, h.keys⟩) ∧
      WrittenOrKept s.soundTimer t.soundTimer h.sound b ∧ WrittenOrKept s.drawFlag t.drawFlag h.draw d := by
  obtain ⟨t', b, d, ht', hrun, hb, hd⟩ := exec_sameRun i s h hk
  obtain rfl : t = t' := by rw [ht] at ht'; injection ht'
  exact ⟨b, d, hrun, hb, hd⟩

end

theorem WrittenOrKept.eq_of_same {α : Type} {before after after' : α} (h : WrittenOrKept before after before after') :
    after' = after :=
  h.elim id fun ⟨h1, h2⟩ => h2.trans h1.symm

/-- Settles O50: each clause is `exec_withHost` at the host view with one piece replaced. -/
theorem noInstructionReadsTheHostsOutputs : Obligations.NoInstructionReadsTheHostsOutputs := by
  intro i s
  obtain ⟨t, ht, -⟩ := exec_ends i s
  have hop := exec_currentOpcode ht
  have hkeys := exec_keypad ht
  refine ⟨t, ht, fun op => ?_, fun b => ?_, fun d => ?_⟩
  · obtain ⟨b', d', hrun, hb, hd⟩ := exec_withHost ht { s.hostView with opcode := op } fun _ => rfl
    obtain rfl := hb.eq_of_same
    obtain rfl := hd.eq_of_same
    refine hrun.trans (congrArg _ ?_)
    simp [State.withHost, State.hostView, ← hkeys]
  · obtain ⟨b', d', hrun, hb, hd⟩ := exec_withHost ht { s.hostView with sound := b } fun _ => rfl
    obtain rfl := hd.eq_of_same
    exact ⟨_, hrun, by simp [State.withHost, State.hostView, ← hkeys, ← hop], hb.imp id And.right⟩
  · obtain ⟨b', d', hrun, hb, hd⟩ := exec_withHost ht { s.hostView with draw := d } fun _ => rfl
    obtain rfl := hb.eq_of_same
    exact ⟨_, hrun, by simp [State.withHost, State.hostView, ← hkeys, ← hop], hd.imp id And.right⟩

/-- Settles O51: the keypad is in no row of the access matrix, and `exec_withHost` replaces it. -/
theorem onlyTheKeyInstructionsReadTheKeypad : Obligations.OnlyTheKeyInstructionsReadTheKeypad := by
  intro i s
  obtain ⟨t, ht, -⟩ := exec_ends i s
  refine ⟨t, ht, exec_keypad ht, fun hi keys => ?_⟩
  obtain ⟨b', d', hrun, hb, hd⟩ := exec_withHost ht { s.hostView with keys := keys } fun ⟨x, hx⟩ => absurd hx (hi x)
  obtain rfl := hb.eq_of_same
  obtain rfl := hd.eq_of_same
  refine hrun.trans (congrArg _ ?_)
  simp [State.withHost, State.hostView, ← exec_currentOpcode ht]

end Sys2Proof.Machine
end

section
/-! SUPPORT. The word a fetch reads, and what FX55 leaves in memory. -/

namespace Sys2Proof.Machine

/-! ### The word of two bytes -/

theorem wordOfBytes_toNat (hi lo : Byte) : (wordOfBytes hi lo).toNat = 256 * hi.toNat + lo.toNat := by
  rw [wordOfBytes, BitVec.toNat_append, ← Nat.shiftLeft_add_eq_or_of_lt lo.isLt, Nat.shiftLeft_eq]
  omega

/-- A fetch reads the word whose high byte is at PC (20_memory.md R65). -/
theorem State.fetchWord_toNat (s : State) :
    s.fetchWord.toNat = 256 * (s.memory.read s.pc.toNat).toNat + (s.memory.read (s.pc.toNat + 1)).toNat :=
  wordOfBytes_toNat _ _

/-! ### FX55 -/

/-- FX55 with every byte in range: V[0] to V[X] stand at I, I + 1, ..., and no other byte is written. -/
theorem execStm_ok (s : State) (x : RegIdx) (h : s.i.toNat + x.val ≤ 0xFFF) :
    ∃ m, execStm x s = .next ((s.writeMemory m).advance.latchResult .ok) ∧
      (∀ r : RegIdx, r ≤ x → m.read (s.i.toNat + r.val) = s.readV r) ∧
      ∀ a, (∀ r : RegIdx, r ≤ x → a ≠ s.i.toNat + r.val) → m.read a = s.memory.read a := by
  obtain ⟨m, hrun, -, hread⟩ := s.storeAtI_ok (s.firstRegs x) (.inr (by rw [State.firstRegs_length]; omega))
  rw [State.firstRegs_length] at hread
  refine ⟨m, hrun, fun r hr => ?_, fun a ha => ?_⟩
  · have hoff : r.val < x.val + 1 := Nat.lt_succ_of_le hr
    rw [hread, if_pos (by omega), Nat.add_sub_cancel_left, s.firstRegs_getD x r hr]
  · rw [hread, if_neg]
    rintro ⟨hlo, hhi⟩
    exact ha ⟨a - s.i.toNat, by omega⟩ (Fin.le_def.2 (by dsimp only; omega)) (by dsimp only; omega)

/-- Settles O38: PC is advanced to I, where the store left V[0] and V[1] for the fetch to read. -/
theorem storeIsSeenByTheNextFetch : Obligations.StoreIsSeenByTheNextFetch := by
  intro s x hi hx hin
  obtain ⟨m, hrun, hstored, -⟩ := execStm_ok s x hin
  have hpc : ((s.writeMemory m).advance.latchResult .ok).pc = s.i := hi.symm
  have h0 : m.read s.i.toNat = s.readV 0 := hstored 0 (Fin.zero_le x)
  have h1 : m.read (s.i.toNat + 1) = s.readV 1 := hstored 1 (Fin.le_def.2 hx)
  refine ⟨_, hrun, hpc, ?_⟩
  rw [State.fetchWord_toNat, hpc]
  simp only [State.latchResult_memory, State.advance_memory, State.writeMemory_memory, h0, h1]

end Sys2Proof.Machine
end

section
/-! SUPPORT. The encoding: the fields of a word, the row tests of the opcode map read through them (30_encoding.md R96), and
what the decoder answers on the words of a row and on the others. -/

namespace Sys2Proof

/-! ### Fields of a word -/

/-- `op[15:12]`, the family (30_encoding.md R91). -/
def fieldFamily (op : Word) : BitVec 4 := op.extractLsb' 12 4

theorem fieldFamily_toNat (op : Word) : (fieldFamily op).toNat = op.toNat / 0x1000 := by
  rw [fieldFamily, BitVec.extractLsb'_toNat, Nat.shiftRight_eq_div_pow]
  omega

theorem fieldN_toNat (op : Word) : (fieldN op).toNat = op.toNat % 0x10 := BitVec.extractLsb'_toNat 0 4 op

theorem fieldNN_toNat (op : Word) : (fieldNN op).toNat = op.toNat % 0x100 := BitVec.extractLsb'_toNat 0 8 op

theorem fieldX_val (op : Word) : (fieldX op).val = op.toNat / 0x100 % 0x10 :=
  (BitVec.extractLsb'_toNat 8 4 op).trans (by rw [Nat.shiftRight_eq_div_pow])

theorem fieldY_val (op : Word) : (fieldY op).val = op.toNat / 0x10 % 0x10 :=
  (BitVec.extractLsb'_toNat 4 4 op).trans (by rw [Nat.shiftRight_eq_div_pow])

theorem fieldFamily_eq_iff {op : Word} {f : BitVec 4} : fieldFamily op = f ↔ op.toNat / 0x1000 = f.toNat := by
  rw [← BitVec.toNat_inj, fieldFamily_toNat]

theorem fieldN_eq_iff {op : Word} {n : BitVec 4} : fieldN op = n ↔ op.toNat % 0x10 = n.toNat := by
  rw [← BitVec.toNat_inj, fieldN_toNat]

theorem fieldNN_eq_iff {op : Word} {nn : Byte} : fieldNN op = nn ↔ op.toNat % 0x100 = nn.toNat := by
  rw [← BitVec.toNat_inj, fieldNN_toNat]

/-- A test settles every test of fewer bits. -/
theorem and_of_and {op m p : Word} (m' : Word) (h : op &&& m = p) (hm : m &&& m' = m') : op &&& m' = p &&& m' := by
  rw [← h, BitVec.and_assoc, hm]

/-- A test that looks at every bit of a field settles the field. -/
theorem extractLsb'_of_and {op m p : Word} {start len : Nat} (h : op &&& m = p)
    (hm : m.extractLsb' start len = BitVec.allOnes len) : op.extractLsb' start len = p.extractLsb' start len := by
  rw [← h, BitVec.extractLsb'_and, hm, BitVec.and_allOnes]

theorem fieldFamily_of_and {op m p : Word} (h : op &&& m = p) (hm : fieldFamily m = 0xF) : fieldFamily op = fieldFamily p :=
  extractLsb'_of_and h hm

theorem fieldN_of_and {op m p : Word} (h : op &&& m = p) (hm : fieldN m = 0xF) : fieldN op = fieldN p :=
  extractLsb'_of_and h hm

theorem fieldNN_of_and {op m p : Word} (h : op &&& m = p) (hm : fieldNN m = 0xFF) : fieldNN op = fieldNN p :=
  extractLsb'_of_and h hm

/-! ### A word is the format of its fields -/

@[simp] theorem regBits_toFin (b : BitVec 4) : regBits b.toFin = b := BitVec.ofNat_toNat 4 b |>.trans (BitVec.setWidth_eq b)

theorem formatA_fields (op : Word) : formatA (fieldFamily op) (fieldNNN op) = op :=
  (BitVec.extractLsb'_append_extractLsb'_eq_extractLsb' rfl).trans BitVec.extractLsb'_eq_self

theorem fieldFamily_append_fieldX (op : Word) : fieldFamily op ++ regBits (fieldX op) = op.extractLsb' 8 8 := by
  rw [fieldX, regBits_toFin]
  exact BitVec.extractLsb'_append_extractLsb'_eq_extractLsb' rfl

theorem formatXI_fields (op : Word) : formatXI (fieldFamily op) (fieldX op) (fieldNN op) = op := by
  rw [formatXI, fieldFamily_append_fieldX]
  exact (BitVec.extractLsb'_append_extractLsb'_eq_extractLsb' rfl).trans BitVec.extractLsb'_eq_self

theorem formatXY_fields (op : Word) : formatXY (fieldFamily op) (fieldX op) (fieldY op) (fieldN op) = op := by
  have hy : op.extractLsb' 8 8 ++ op.extractLsb' 4 4 = op.extractLsb' 4 12 :=
    BitVec.extractLsb'_append_extractLsb'_eq_extractLsb' rfl
  rw [formatXY, fieldFamily_append_fieldX, fieldY, regBits_toFin, hy]
  exact (BitVec.extractLsb'_append_extractLsb'_eq_extractLsb' rfl).trans BitVec.extractLsb'_eq_self

/-- Two words of format XY that differ in the low nibble alone. -/
theorem formatXY_and_ignored (family : BitVec 4) (x y : RegIdx) (sub : BitVec 4) :
    formatXY family x y sub &&& ~~~0x000F = formatXY family x y 0 &&& ~~~0x000F := by
  apply BitVec.eq_of_getLsbD_eq
  intro j hj
  rw [BitVec.getLsbD_and, BitVec.getLsbD_and, getLsbD_formatXY, getLsbD_formatXY]
  split_ifs with h4
  · interval_cases j <;> simp
  all_goals rfl

/-! ### What the masks of the opcode map keep, by fields -/

theorem and_F000 (op : Word) : op &&& (0xF000 : Word) = (fieldFamily op).setWidth 16 <<< 12 := by
  conv_lhs => rw [← formatA_fields op]
  exact formatA_row _ _

theorem and_F00F (op : Word) : op &&& (0xF00F : Word) = (fieldFamily op).setWidth 16 <<< 12 ||| (fieldN op).setWidth 16 := by
  conv_lhs => rw [← formatXY_fields op]
  exact formatXY_subrow _ _ _ _

theorem and_F0FF (op : Word) : op &&& (0xF0FF : Word) = (fieldFamily op).setWidth 16 <<< 12 ||| (fieldNN op).setWidth 16 := by
  conv_lhs => rw [← formatXI_fields op]
  exact formatXK_row _ _ _

theorem fieldFamily_and_F000 (m : Word) : fieldFamily (m &&& 0xF000) = fieldFamily m := (fieldFamily_of_and rfl rfl).symm

/-- The word of a family alone. -/
theorem fieldFamily_shiftLeft (f : BitVec 4) : fieldFamily (f.setWidth 16 <<< 12) = f := by
  revert f
  decide

theorem and_F000_eq_iff {op : Word} {f : BitVec 4} :
    op &&& (0xF000 : Word) = f.setWidth 16 <<< 12 ↔ fieldFamily op = f := by
  rw [and_F000]
  exact ⟨fun h => by simpa only [fieldFamily_shiftLeft] using congrArg fieldFamily h, fun h => h ▸ rfl⟩

/-! ### The fields of a word of each format -/

@[simp] theorem fieldNNN_formatA (family : BitVec 4) (nnn : Addr12) : fieldNNN (formatA family nnn) = nnn := by
  apply BitVec.eq_of_getLsbD_eq
  intro j hj
  simp [fieldNNN, getLsbD_formatA, hj]

@[simp] theorem fieldNN_formatXI (family : BitVec 4) (x : RegIdx) (nn : Byte) : fieldNN (formatXI family x nn) = nn := by
  apply BitVec.eq_of_getLsbD_eq
  intro j hj
  simp [fieldNN, getLsbD_formatXI, hj]

@[simp] theorem fieldX_formatXI (family : BitVec 4) (x : RegIdx) (nn : Byte) : fieldX (formatXI family x nn) = x := by
  have h : (formatXI family x nn).extractLsb' 8 4 = regBits x := by
    apply BitVec.eq_of_getLsbD_eq
    intro j hj
    simp [getLsbD_formatXI, hj, show 8 + j < 12 by omega]
  rw [fieldX, h, toFin_regBits]

@[simp] theorem fieldX_formatXK (family : BitVec 4) (x : RegIdx) (fixed : Byte) : fieldX (formatXK family x fixed) = x :=
  fieldX_formatXI family x fixed

@[simp] theorem fieldN_formatXY (family : BitVec 4) (x y : RegIdx) (sub : BitVec 4) :
    fieldN (formatXY family x y sub) = sub := by
  apply BitVec.eq_of_getLsbD_eq
  intro j hj
  simp [fieldN, getLsbD_formatXY, hj]

@[simp] theorem fieldY_formatXY (family : BitVec 4) (x y : RegIdx) (sub : BitVec 4) :
    fieldY (formatXY family x y sub) = y := by
  have h : (formatXY family x y sub).extractLsb' 4 4 = regBits y := by
    apply BitVec.eq_of_getLsbD_eq
    intro j hj
    simp [getLsbD_formatXY, hj, show 4 + j < 8 by omega]
  rw [fieldY, h, toFin_regBits]

@[simp] theorem fieldX_formatXY (family : BitVec 4) (x y : RegIdx) (sub : BitVec 4) :
    fieldX (formatXY family x y sub) = x := by
  have h : (formatXY family x y sub).extractLsb' 8 4 = regBits x := by
    apply BitVec.eq_of_getLsbD_eq
    intro j hj
    simp [getLsbD_formatXY, hj, show 8 + j < 12 by omega, show ¬ 8 + j < 4 by omega]
  rw [fieldX, h, toFin_regBits]

/-! ### The family key (30_encoding.md R94) -/

/-- The inversion lemma of `familyKey`: the test that holds and the key it gives, or none holds and the key is the family. -/
theorem familyKey_cases (op : Word) :
    (op &&& 0xFFEE = 0x00EE ∧ familyKey op = 0x00EE) ∨ (op &&& 0xFFEF = 0x00E0 ∧ familyKey op = 0x00E0) ∨
    (op &&& 0xF0FF = 0xE09E ∧ familyKey op = 0xE09E) ∨ (op &&& 0xF0FF = 0xE0A1 ∧ familyKey op = 0xE0A1) ∨
    ((op &&& 0xFFEE ≠ 0x00EE ∧ op &&& 0xFFEF ≠ 0x00E0 ∧ op &&& 0xF0FF ≠ 0xE09E ∧ op &&& 0xF0FF ≠ 0xE0A1) ∧
      familyKey op = op &&& 0xF000) := by
  unfold familyKey
  split_ifs with hret hcls hskp hsknp
  · exact .inl ⟨hret, rfl⟩
  · exact .inr (.inl ⟨hcls, rfl⟩)
  · exact .inr (.inr (.inl ⟨hskp, rfl⟩))
  · exact .inr (.inr (.inr (.inl ⟨hsknp, rfl⟩)))
  · exact .inr (.inr (.inr (.inr ⟨⟨hret, hcls, hskp, hsknp⟩, rfl⟩)))

/-- Every word has a family: one without a handler of its own (0 and E), one with a second level (8 and F), or one with a
single instruction. -/
theorem and_F000_cases (op : Word) :
    op &&& 0xF000 ∈ [0x0000#16, 0xE000#16] ∨ op &&& 0xF000 = 0x8000 ∨ op &&& 0xF000 = 0xF000 ∨
      op &&& 0xF000 ∈ [0x1000#16, 0x2000#16, 0x3000#16, 0x4000#16, 0x5000#16, 0x6000#16, 0x7000#16, 0x9000#16, 0xA000#16,
        0xB000#16, 0xC000#16, 0xD000#16] := by
  rw [and_F000]
  generalize fieldFamily op = f
  revert f
  decide

/-- The key has the family of its word. -/
theorem fieldFamily_familyKey (op : Word) : fieldFamily (familyKey op) = fieldFamily op := by
  rcases familyKey_cases op with ⟨ht, hk⟩ | ⟨ht, hk⟩ | ⟨ht, hk⟩ | ⟨ht, hk⟩ | ⟨-, hk⟩
  case inr.inr.inr.inr => rw [hk, fieldFamily_and_F000]
  all_goals exact (congrArg fieldFamily hk).trans (fieldFamily_of_and ht rfl).symm

/-- In every family but 0 and E the key is the family. -/
theorem familyKey_of_family {op : Word} (h0 : fieldFamily op ≠ 0) (hE : fieldFamily op ≠ 0xE) :
    familyKey op = op &&& 0xF000 := by
  rcases familyKey_cases op with ⟨h, -⟩ | ⟨h, -⟩ | ⟨h, -⟩ | ⟨h, -⟩ | ⟨-, hk⟩
  · exact absurd (fieldFamily_of_and h rfl) h0
  · exact absurd (fieldFamily_of_and h rfl) h0
  · exact absurd (fieldFamily_of_and h rfl) hE
  · exact absurd (fieldFamily_of_and h rfl) hE
  · exact hk

theorem familyKey_of_familyE {op : Word} (hE : fieldFamily op = 0xE) :
    familyKey op = if op &&& 0xF0FF = 0xE09E then 0xE09E else if op &&& 0xF0FF = 0xE0A1 then 0xE0A1 else op &&& 0xF000 := by
  have h0 : fieldFamily op ≠ 0 := by rw [hE]; decide
  rw [familyKey, if_neg fun h => h0 (fieldFamily_of_and h rfl), if_neg fun h => h0 (fieldFamily_of_and h rfl)]

theorem familyKey_of_and {op m p : Word} (h : op &&& m = p) (hm : m &&& 0xF000 = 0xF000) (h0 : fieldFamily p ≠ 0)
    (hE : fieldFamily p ≠ 0xE) : familyKey op = familyKey p := by
  have hf : fieldFamily op = fieldFamily p := fieldFamily_of_and h (by rw [← fieldFamily_and_F000, hm]; rfl)
  rw [familyKey_of_family (hf ▸ h0) (hf ▸ hE), familyKey_of_family h0 hE]
  exact and_of_and 0xF000 h hm

/-! ### The row a word lies in (30_encoding.md R96) -/

/-- The word has the match of the instruction's row under its mask. -/
def InRow (op : Word) (i : Instr) : Prop := op &&& (opcodeRow i).mask = (opcodeRow i).pattern

/-- The instruction of the same row whose operands stand in the fields of a word. -/
def Instr.withOperandsOf (op : Word) : Instr → Instr
  | .cls => .cls
  | .ret => .ret
  | .jp _ => .jp (fieldNNN op)
  | .call _ => .call (fieldNNN op)
  | .sei _ _ => .sei (fieldX op) (fieldNN op)
  | .snei _ _ => .snei (fieldX op) (fieldNN op)
  | .ser _ _ => .ser (fieldX op) (fieldY op)
  | .ldi _ _ => .ldi (fieldX op) (fieldNN op)
  | .addi _ _ => .addi (fieldX op) (fieldNN op)
  | .mov _ _ => .mov (fieldX op) (fieldY op)
  | .or _ _ => .or (fieldX op) (fieldY op)
  | .and _ _ => .and (fieldX op) (fieldY op)
  | .xor _ _ => .xor (fieldX op) (fieldY op)
  | .add _ _ => .add (fieldX op) (fieldY op)
  | .sub _ _ => .sub (fieldX op) (fieldY op)
  | .shr _ _ => .shr (fieldX op) (fieldY op)
  | .subn _ _ => .subn (fieldX op) (fieldY op)
  | .shl _ _ => .shl (fieldX op) (fieldY op)
  | .sner _ _ => .sner (fieldX op) (fieldY op)
  | .lda _ => .lda (fieldNNN op)
  | .jpv0 _ => .jpv0 (fieldNNN op)
  | .rnd _ _ => .rnd (fieldX op) (fieldNN op)
  | .drw _ _ _ => .drw (fieldX op) (fieldY op) (fieldN op).toNat
  | .skp _ => .skp (fieldX op)
  | .sknp _ => .sknp (fieldX op)
  | .lddt _ => .lddt (fieldX op)
  | .ldk _ => .ldk (fieldX op)
  | .stdt _ => .stdt (fieldX op)
  | .stst _ => .stst (fieldX op)
  | .adda _ => .adda (fieldX op)
  | .ldf _ => .ldf (fieldX op)
  | .bcd _ => .bcd (fieldX op)
  | .stm _ => .stm (fieldX op)
  | .ldm _ => .ldm (fieldX op)

theorem opcodeRow_withOperandsOf (op : Word) (i : Instr) : opcodeRow (i.withOperandsOf op) = opcodeRow i := by
  cases i <;> rfl

theorem wellFormed_withOperandsOf (op : Word) (i : Instr) : (i.withOperandsOf op).WellFormed = true := by
  cases i with
  | drw x y n => exact decide_eq_true (fieldN op).isLt
  | _ => rfl

/-- The words of a row have one key, that of the row's match. -/
theorem InRow.familyKey_eq {op : Word} {i : Instr} (h : InRow op i) : familyKey op = familyKey (opcodeRow i).pattern := by
  unfold InRow at h
  cases i <;> simp only [opcodeRow] at h ⊢
  case ret => exact if_pos h
  case cls =>
    have hret : op &&& 0xFFEE ≠ 0x00EE := fun h' => absurd (h'.symm.trans (and_of_and 0xFFEE h rfl)) (by decide)
    exact (if_neg hret).trans (if_pos h)
  case skp => exact (familyKey_of_familyE (fieldFamily_of_and h rfl)).trans (if_pos h)
  case sknp =>
    have hskp : op &&& 0xF0FF ≠ 0xE09E := by rw [h]; decide
    exact (familyKey_of_familyE (fieldFamily_of_and h rfl)).trans ((if_neg hskp).trans (if_pos h))
  all_goals exact familyKey_of_and h rfl (by decide) (by decide)

/-- A word of a row decodes to the instruction of that row with the operands in its fields. -/
theorem InRow.decode_eq {op : Word} {i : Instr} (h : InRow op i) : decode op = .ok (i.withOperandsOf op) := by
  have hk := h.familyKey_eq
  unfold InRow at h
  cases i <;> simp only [opcodeRow] at h hk
  case mov | or | and | xor | add | sub | shr | subn | shl =>
    have hn := fieldN_of_and h rfl
    simp only [decode, hk, decodeAlu, hn]
    rfl
  case lddt | ldk | stdt | stst | adda | ldf | bcd | stm | ldm =>
    have hnn := fieldNN_of_and h rfl
    simp only [decode, hk, decodeMisc, hnn]
    rfl
  all_goals
    simp only [decode, hk]
    rfl

/-! ### The second level (30_encoding.md R97) -/

/-- The sub-opcodes of the 8 family. -/
def aluSelectors : List (BitVec 4) := [0x0, 0x1, 0x2, 0x3, 0x4, 0x5, 0x6, 0x7, 0xE]

/-- The selector bytes of the F family. -/
def miscSelectors : List Byte := [0x07, 0x0A, 0x15, 0x18, 0x1E, 0x29, 0x33, 0x55, 0x65]

theorem decodeAlu_of_not_mem {op : Word} (h : fieldN op ∉ aluSelectors) : decodeAlu op = .error (.noSelector op) := by
  simp only [aluSelectors, List.mem_cons, List.not_mem_nil, or_false, not_or] at h
  simp only [decodeAlu, h, if_false]

theorem decodeMisc_of_not_mem {op : Word} (h : fieldNN op ∉ miscSelectors) : decodeMisc op = .error (.noSelector op) := by
  simp only [miscSelectors, List.mem_cons, List.not_mem_nil, or_false, not_or] at h
  simp only [decodeMisc, h, if_false]

/-- A sub-opcode of the 8 family selects the instruction whose row the word lies in. -/
theorem decodeAlu_of_mem {op : Word} (hf : op &&& 0xF000 = 0x8000) (h : fieldN op ∈ aluSelectors) :
    ∃ i, decodeAlu op = .ok i ∧ InRow op i ∧ i.withOperandsOf op = i := by
  have hrow : op &&& 0xF00F = 0x8000 ||| (fieldN op).setWidth 16 := by rw [and_F00F, ← and_F000, hf]
  simp only [aluSelectors, List.mem_cons, List.not_mem_nil, or_false] at h
  rcases h with hn | hn | hn | hn | hn | hn | hn | hn | hn
  all_goals
    rw [hn] at hrow
    rw [decodeAlu, hn]
    exact ⟨_, rfl, hrow, rfl⟩

/-- A selector byte of the F family selects the instruction whose row the word lies in. -/
theorem decodeMisc_of_mem {op : Word} (hf : op &&& 0xF000 = 0xF000) (h : fieldNN op ∈ miscSelectors) :
    ∃ i, decodeMisc op = .ok i ∧ InRow op i ∧ i.withOperandsOf op = i := by
  have hrow : op &&& 0xF0FF = 0xF000 ||| (fieldNN op).setWidth 16 := by rw [and_F0FF, ← and_F000, hf]
  simp only [miscSelectors, List.mem_cons, List.not_mem_nil, or_false] at h
  rcases h with hn | hn | hn | hn | hn | hn | hn | hn | hn
  all_goals
    rw [hn] at hrow
    rw [decodeMisc, hn]
    exact ⟨_, rfl, hrow, rfl⟩

/-! ### Every word decodes in its row or is unknown -/

/-- What the decoder rejects, by key and selector (30_encoding.md R95, R97). -/
def UnknownOpcode (op : Word) : Prop :=
  familyKey op = 0x0000 ∨ familyKey op = 0xE000 ∨ (familyKey op = 0x8000 ∧ fieldN op ∉ aluSelectors) ∨
    (familyKey op = 0xF000 ∧ fieldNN op ∉ miscSelectors)

theorem UnknownOpcode.decode_error {op : Word} (h : UnknownOpcode op) : ∃ e, decode op = .error e := by
  rcases h with hk | hk | ⟨hk, hsel⟩ | ⟨hk, hsel⟩ <;> rw [decode, hk]
  · exact ⟨_, rfl⟩
  · exact ⟨_, rfl⟩
  · exact ⟨_, decodeAlu_of_not_mem hsel⟩
  · exact ⟨_, decodeMisc_of_not_mem hsel⟩

theorem decode_ok_or_unknown (op : Word) :
    (∃ i, decode op = .ok i ∧ InRow op i ∧ i.withOperandsOf op = i) ∨ UnknownOpcode op := by
  rcases familyKey_cases op with ⟨ht, hk⟩ | ⟨ht, hk⟩ | ⟨ht, hk⟩ | ⟨ht, hk⟩ | ⟨-, hk⟩
  case inl | inr.inl | inr.inr.inl | inr.inr.inr.inl =>
    left
    rw [decode, hk]
    exact ⟨_, rfl, ht, rfl⟩
  case inr.inr.inr.inr =>
    rcases and_F000_cases op with hf | hf | hf | hf
    · simp only [List.mem_cons, List.not_mem_nil, or_false] at hf
      exact .inr (hf.imp hk.trans fun hE => .inl (hk.trans hE))
    · by_cases hsel : fieldN op ∈ aluSelectors
      · left
        rw [decode, hk, hf]
        exact decodeAlu_of_mem hf hsel
      · exact .inr (.inr (.inr (.inl ⟨hk.trans hf, hsel⟩)))
    · by_cases hsel : fieldNN op ∈ miscSelectors
      · left
        rw [decode, hk, hf]
        exact decodeMisc_of_mem hf hsel
      · exact .inr (.inr (.inr (.inr ⟨hk.trans hf, hsel⟩)))
    · left
      simp only [List.mem_cons, List.not_mem_nil, or_false] at hf
      rcases hf with hf | hf | hf | hf | hf | hf | hf | hf | hf | hf | hf | hf
      all_goals
        rw [decode, hk, hf]
        exact ⟨_, rfl, hf, rfl⟩

/-- The inversion lemma of `decode`: the word lies in the row of the instruction and has its operands in its fields. -/
theorem decode_ok {op : Word} {i : Instr} (h : decode op = .ok i) : InRow op i ∧ i.withOperandsOf op = i := by
  rcases decode_ok_or_unknown op with ⟨j, hj, hrow⟩ | hu
  · obtain rfl := Except.ok.inj (hj.symm.trans h)
    exact hrow
  · obtain ⟨e, he⟩ := hu.decode_error
    exact nomatch he.symm.trans h

theorem decode_error_iff (op : Word) : (∃ e, decode op = .error e) ↔ UnknownOpcode op := by
  refine ⟨fun ⟨e, he⟩ => ?_, UnknownOpcode.decode_error⟩
  rcases decode_ok_or_unknown op with ⟨j, hj, -⟩ | hu
  · exact nomatch he.symm.trans hj
  · exact hu

/-- A word of a row is the canonical word of its instruction, but for the bits its row ignores (30_encoding.md R98, R99). -/
theorem InRow.canonical {op : Word} {i : Instr} (h : InRow op i) :
    op &&& ~~~(opcodeRow i).ignored = encode (i.withOperandsOf op) &&& ~~~(opcodeRow i).ignored := by
  unfold InRow at h
  cases i <;> simp only [opcodeRow] at h
  case cls | ret => simpa [opcodeRow, encode, Instr.withOperandsOf] using h
  case ser | sner =>
    have hop := formatXY_fields op
    rw [fieldFamily_of_and h rfl] at hop
    conv_lhs => rw [← hop]
    exact formatXY_and_ignored _ _ _ _
  case jp | call | lda | jpv0 =>
    have hop := formatA_fields op
    rw [fieldFamily_of_and h rfl] at hop
    exact congrArg (· &&& _) hop.symm
  case sei | snei | ldi | addi | rnd =>
    have hop := formatXI_fields op
    rw [fieldFamily_of_and h rfl] at hop
    exact congrArg (· &&& _) hop.symm
  case drw =>
    have hop := formatXY_fields op
    rw [fieldFamily_of_and h rfl] at hop
    have henc : encode (.drw (fieldX op) (fieldY op) (fieldN op).toNat) = op := by
      rw [encode, BitVec.ofNat_toNat, BitVec.setWidth_eq]
      exact hop
    exact congrArg (· &&& _) henc.symm
  case mov | or | and | xor | add | sub | shr | subn | shl =>
    have hop := formatXY_fields op
    rw [fieldFamily_of_and h rfl, fieldN_of_and h rfl] at hop
    exact congrArg (· &&& _) hop.symm
  all_goals
    have hop := formatXI_fields op
    rw [fieldFamily_of_and h rfl, fieldNN_of_and h rfl] at hop
    exact congrArg (· &&& _) hop.symm

/-! ### The canonical words -/

theorem encode_inRow : ∀ i : Instr, InRow (encode i) i
  | .cls => Laws.EncodesInRow.cls
  | .ret => Laws.EncodesInRow.ret
  | .jp nnn => Laws.EncodesInRow.jp nnn
  | .call nnn => Laws.EncodesInRow.call nnn
  | .sei x nn => Laws.EncodesInRow.sei x nn
  | .snei x nn => Laws.EncodesInRow.snei x nn
  | .ser x y => Laws.EncodesInRow.ser x y
  | .ldi x nn => Laws.EncodesInRow.ldi x nn
  | .addi x nn => Laws.EncodesInRow.addi x nn
  | .mov x y => Laws.EncodesInRow.mov x y
  | .or x y => Laws.EncodesInRow.or x y
  | .and x y => Laws.EncodesInRow.and x y
  | .xor x y => Laws.EncodesInRow.xor x y
  | .add x y => Laws.EncodesInRow.add x y
  | .sub x y => Laws.EncodesInRow.sub x y
  | .shr x y => Laws.EncodesInRow.shr x y
  | .subn x y => Laws.EncodesInRow.subn x y
  | .shl x y => Laws.EncodesInRow.shl x y
  | .sner x y => Laws.EncodesInRow.sner x y
  | .lda nnn => Laws.EncodesInRow.lda nnn
  | .jpv0 nnn => Laws.EncodesInRow.jpv0 nnn
  | .rnd x nn => Laws.EncodesInRow.rnd x nn
  | .drw x y n => Laws.EncodesInRow.drw x y n
  | .skp x => Laws.EncodesInRow.skp x
  | .sknp x => Laws.EncodesInRow.sknp x
  | .lddt x => Laws.EncodesInRow.lddt x
  | .ldk x => Laws.EncodesInRow.ldk x
  | .stdt x => Laws.EncodesInRow.stdt x
  | .stst x => Laws.EncodesInRow.stst x
  | .adda x => Laws.EncodesInRow.adda x
  | .ldf x => Laws.EncodesInRow.ldf x
  | .bcd x => Laws.EncodesInRow.bcd x
  | .stm x => Laws.EncodesInRow.stm x
  | .ldm x => Laws.EncodesInRow.ldm x

/-- The fields of a canonical word are the operands, where the row count fits its field. -/
theorem withOperandsOf_encode {i : Instr} (hwf : i.WellFormed = true) : i.withOperandsOf (encode i) = i := by
  cases i with
  | drw x y n =>
    have hn : n < 16 := of_decide_eq_true hwf
    simp [Instr.withOperandsOf, encode, Nat.mod_eq_of_lt hn]
  | _ => simp [Instr.withOperandsOf, encode]

/-- Settles O7: the canonical word lies in its row, so it decodes to the instruction of that row with the operands in its
fields. -/
theorem decodeOfEncodeIsTheInstruction : Obligations.DecodeOfEncodeIsTheInstruction := by
  intro i hwf
  rw [(encode_inRow i).decode_eq, withOperandsOf_encode hwf]

/-- Settles O8: `decode_ok` says which row the word lies in, and `InRow.canonical` compares it with its canonical word. -/
theorem decodedWordIsItsCanonicalWordButForIgnoredBits : Obligations.DecodedWordIsItsCanonicalWordButForIgnoredBits := by
  intro op i h
  obtain ⟨hrow, hi⟩ := decode_ok h
  have hwf := wellFormed_withOperandsOf op i
  have hword := hrow.canonical
  rw [hi] at hwf hword
  exact ⟨hwf, hrow, hword⟩

/-- Settles O9: a word of a row decodes in that row, and a word that decodes lies in a row. -/
theorem wordSelectsTheRowItMatches : Obligations.WordSelectsTheRowItMatches := by
  refine fun op => ⟨fun i h => ⟨_, InRow.decode_eq h, opcodeRow_withOperandsOf op i⟩, fun hnone => ?_⟩
  cases hd : decode op with
  | ok i => exact absurd (decode_ok hd).1 (hnone i)
  | error e => exact ⟨e, rfl⟩

/-! ### The unknown opcodes (30_encoding.md R100) -/

/-- A word whose high byte is tested to be 0 is below 0x100. -/
theorem toNat_lt_of_and {op m p : Word} (h : op &&& m = p) (hm : m.extractLsb' 8 8 = BitVec.allOnes 8)
    (hp : p.extractLsb' 8 8 = 0) : op.toNat < 0x100 := by
  have hhi : (op.extractLsb' 8 8).toNat = 0 := by rw [extractLsb'_of_and h hm, hp]; rfl
  rw [BitVec.extractLsb'_toNat, Nat.shiftRight_eq_div_pow] at hhi
  omega

theorem eq_setWidth_fieldNN {op : Word} (h : op.toNat < 0x100) : op = (fieldNN op).setWidth 16 := by
  apply BitVec.eq_of_toNat_eq
  rw [BitVec.toNat_setWidth, fieldNN_toNat, Nat.mod_eq_of_lt h, Nat.mod_eq_of_lt (by omega)]

/-- Such a test lets through the words of a list, where it does so on the words below 0x100. -/
theorem and_eq_iff_mem {op m p : Word} {ns : List Nat} (hm : m.extractLsb' 8 8 = BitVec.allOnes 8)
    (hp : p.extractLsb' 8 8 = 0) (hns : ∀ n ∈ ns, n < 0x100)
    (hbytes : ∀ b : Byte, b.setWidth 16 &&& m = p ↔ (b.setWidth 16).toNat ∈ ns) : op &&& m = p ↔ op.toNat ∈ ns := by
  by_cases hop : op.toNat < 0x100
  · rw [eq_setWidth_fieldNN hop]
    exact hbytes _
  · exact iff_of_false (fun h => hop (toNat_lt_of_and h hm hp)) fun h => hop (hns _ h)

theorem and_FFEE_iff (op : Word) : op &&& 0xFFEE = 0x00EE ↔ op.toNat ∈ [0xEE, 0xEF, 0xFE, 0xFF] :=
  and_eq_iff_mem rfl rfl (by decide) (by decide)

theorem and_FFEF_iff (op : Word) : op &&& 0xFFEF = 0x00E0 ↔ op.toNat ∈ [0xE0, 0xF0] :=
  and_eq_iff_mem rfl rfl (by decide) (by decide)

theorem familyKey_eq_zero_iff (op : Word) :
    familyKey op = 0x0000 ↔ fieldFamily op = 0x0 ∧ op &&& 0xFFEE ≠ 0x00EE ∧ op &&& 0xFFEF ≠ 0x00E0 := by
  rcases familyKey_cases op with ⟨ht, hk⟩ | ⟨ht, hk⟩ | ⟨ht, hk⟩ | ⟨ht, hk⟩ | ⟨⟨hret, hcls, -, -⟩, hk⟩
  · exact iff_of_false (by rw [hk]; decide) fun ⟨_, hret, _⟩ => hret ht
  · exact iff_of_false (by rw [hk]; decide) fun ⟨_, _, hcls⟩ => hcls ht
  · exact iff_of_false (by rw [hk]; decide) fun ⟨hf, _⟩ => absurd ((fieldFamily_of_and ht rfl).symm.trans hf) (by decide)
  · exact iff_of_false (by rw [hk]; decide) fun ⟨hf, _⟩ => absurd ((fieldFamily_of_and ht rfl).symm.trans hf) (by decide)
  · rw [hk]
    exact (and_F000_eq_iff (f := 0x0)).trans ⟨fun hf => ⟨hf, hret, hcls⟩, And.left⟩

theorem familyKey_eq_E000_iff (op : Word) : familyKey op = 0xE000 ↔ fieldFamily op = 0xE ∧ fieldNN op ∉ [0x9E#8, 0xA1#8] := by
  by_cases hE : fieldFamily op = 0xE
  · rw [familyKey_of_familyE hE]
    split_ifs with hskp hsknp
    · exact iff_of_false (by decide) fun h => h.2 (by rw [fieldNN_of_and hskp rfl]; decide)
    · exact iff_of_false (by decide) fun h => h.2 (by rw [fieldNN_of_and hsknp rfl]; decide)
    · have hlow : op &&& 0xF0FF = (0xE000 : Word) ||| (fieldNN op).setWidth 16 := by
        refine (and_F0FF op).trans ?_
        rw [hE]
        rfl
      refine iff_of_true ((and_F000_eq_iff (f := 0xE)).2 hE) ⟨hE, fun hnn => ?_⟩
      simp only [List.mem_cons, List.not_mem_nil, or_false] at hnn
      rcases hnn with hnn | hnn
      · exact hskp (hlow.trans (by rw [hnn]; rfl))
      · exact hsknp (hlow.trans (by rw [hnn]; rfl))
  · refine iff_of_false (fun h => hE ?_) fun h => hE h.1
    rw [← fieldFamily_familyKey, h]
    rfl

theorem familyKey_eq_family_iff {op : Word} {f : BitVec 4} (h0 : f ≠ 0) (hE : f ≠ 0xE) :
    familyKey op = f.setWidth 16 <<< 12 ↔ fieldFamily op = f := by
  constructor
  · intro h
    rw [← fieldFamily_familyKey, h, fieldFamily_shiftLeft]
  · rintro rfl
    rw [familyKey_of_family h0 hE, and_F000]

/-- Settles O10: the classes of `decode_error_iff`, each key and field read as a number. -/
theorem unknownOpcodesAreTheFourClasses : Obligations.UnknownOpcodesAreTheFourClasses := by
  intro op
  have h8 : familyKey op = 0x8000 ↔ fieldFamily op = 0x8 := familyKey_eq_family_iff (f := 0x8) (by decide) (by decide)
  have hF : familyKey op = 0xF000 ↔ fieldFamily op = 0xF := familyKey_eq_family_iff (f := 0xF) (by decide) (by decide)
  rw [decode_error_iff, UnknownOpcode, familyKey_eq_zero_iff, familyKey_eq_E000_iff, h8, hF, Ne, Ne, and_FFEE_iff, and_FFEF_iff]
  simp only [aluSelectors, miscSelectors, List.mem_cons, List.not_mem_nil, or_false, fieldFamily_eq_iff, fieldN_eq_iff,
    fieldNN_eq_iff, BitVec.ofNat_eq_ofNat, BitVec.reduceToNat]
  refine or_congr (and_congr Iff.rfl ?_) (or_congr Iff.rfl (or_congr (and_congr Iff.rfl ?_) Iff.rfl))
  · omega
  · omega

/-! ### Words that differ in ignored bits (30_encoding.md R98, R99) -/

/-- The family, X and Y of a word written as a number, digit by digit. -/
theorem fields_ofNat {op : Word} {f : BitVec 4} {k n : Nat} (x y : RegIdx) (hk : k = 0x1000 * f.toNat) (hn : n < 16)
    (hop : BitVec.ofNat 16 (k + 0x100 * x.val + 0x10 * y.val + n) = op) :
    fieldFamily op = f ∧ fieldX op = x ∧ fieldY op = y := by
  have hf := f.isLt
  have hnat : op.toNat = k + 0x100 * x.val + 0x10 * y.val + n := by
    rw [← hop, BitVec.toNat_ofNat, Nat.mod_eq_of_lt (by omega)]
  refine ⟨fieldFamily_eq_iff.2 ?_, Fin.ext ?_, Fin.ext ?_⟩
  · omega
  · rw [fieldX_val]; omega
  · rw [fieldY_val]; omega

/-- Settles O11: each word lies in the row of its key, whatever its ignored bits. -/
theorem aliasWordsDecodeAsTheirInstruction : Obligations.AliasWordsDecodeAsTheirInstruction := by
  refine ⟨fun op hop => ?_, fun op hop => ?_, fun x y n hn => ?_, fun x y n hn => ?_⟩
  · exact InRow.decode_eq (i := .ret) ((and_FFEE_iff op).2 (List.mem_map_of_mem (f := BitVec.toNat) hop))
  · exact InRow.decode_eq (i := .cls) ((and_FFEF_iff op).2 (List.mem_map_of_mem (f := BitVec.toNat) hop))
  · generalize hop : BitVec.ofNat 16 (0x5000 + 0x100 * x.val + 0x10 * y.val + n) = op
    obtain ⟨hf, hx, hy⟩ := fields_ofNat (f := 0x5) x y rfl hn hop
    have hrow : InRow op (.ser x y) := (and_F000_eq_iff (f := 0x5)).2 hf
    rw [hrow.decode_eq, Instr.withOperandsOf, hx, hy]
  · generalize hop : BitVec.ofNat 16 (0x9000 + 0x100 * x.val + 0x10 * y.val + n) = op
    obtain ⟨hf, hx, hy⟩ := fields_ofNat (f := 0x9) x y rfl hn hop
    have hrow : InRow op (.sner x y) := (and_F000_eq_iff (f := 0x9)).2 hf
    rw [hrow.decode_eq, Instr.withOperandsOf, hx, hy]

/-- Settles O12: eight words are decoded. -/
theorem sampleWordsDecode : Obligations.SampleWordsDecode := by
  unfold Obligations.SampleWordsDecode
  decide

end Sys2Proof
end

section
/-! SUPPORT. The step: its three phases as equations, the three results of an instruction, the jump to itself and the default
advance. -/

namespace Sys2Proof.Machine

/-! ### The phases of a step (40_step_cycle.md R120) -/

section
variable {s : State} (hh : s.halted = none)
include hh

/-- The fetched word is an instruction, which is run. -/
theorem step_of_decode_ok (hpc : s.pc.toNat ≤ 0x0FFE) {i : Instr} (hd : decode s.fetchWord = .ok i) :
    step s = exec i (s.latchOpcode s.fetchWord) := by
  simp only [step, hh, State.canFetch, hpc, decide_true, if_true, hd]

/-- The fetched word is no instruction (60_exceptions.md R211). -/
theorem step_of_decode_error (hpc : s.pc.toNat ≤ 0x0FFE) {e : DecodeError} (hd : decode s.fetchWord = .error e) :
    step s = raise (.unknownOpcode s.fetchWord) (s.latchOpcode s.fetchWord) := by
  simp only [step, hh, State.canFetch, hpc, decide_true, if_true, hd]

/-- Nothing is fetched (60_exceptions.md R212). -/
theorem step_of_pc_gt (hpc : 0x0FFE < s.pc.toNat) : step s = raise (.outOfBoundsFetch s.pc) s := by
  simp only [step, hh, State.canFetch, Nat.not_le.2 hpc, decide_false, Bool.false_eq_true, if_false]

end

/-- Settles O13: the word of the two bytes at PC is the fetched word. -/
theorem stepRunsTheDecodedInstruction : Obligations.StepRunsTheDecodedInstruction := by
  intro s op i hh hpc hop hd
  obtain rfl : op = s.fetchWord := BitVec.eq_of_toNat_eq (hop.trans s.fetchWord_toNat.symm)
  exact step_of_decode_ok hh hpc hd

/-! ### The three results (R126) -/

theorem SameBut.latchOpcode {w : Piece → Prop} {s t : State} (h : SameBut w s t) (op : Word) (hw : w .currentOpcode) :
    SameBut w s (t.latchOpcode op) :=
  h.trans fun p hp => by
    cases p with
    | currentOpcode => exact absurd hw hp
    | _ => rfl

/-- Each of the ways an instruction ends has one of the three results. -/
theorem Ends.result_cases {i : Instr} {s t : State} (h : Ends i s t) :
    (t.result = some .ok ∧ t.halted = s.halted) ∨
      ((∃ x, i = .ldk x) ∧ s.pressedKeys = [] ∧ t = s.latchResult .pending) ∨
      ∃ e, t.result = some (.err e) ∧ t.halted = some e ∧ t.pc = s.pc := by
  cases h with
  | advances u frame => exact .inl ⟨rfl, frame .halted fun hp => hp.2⟩
  | raises e u frame => exact .inr (.inr ⟨e, rfl, rfl, frame .pc fun hp => hp.2⟩)
  | pends x instr idle => exact .inr (.inl ⟨⟨x, instr⟩, idle, rfl⟩)
  | skips c => exact .inl ⟨rfl, s.skipIf_halted c⟩
  | jumps a => exact .inl ⟨rfl, rfl⟩
  | calls nnn => exact .inl ⟨rfl, s.push_halted s.pc⟩
  | returns => exact .inl ⟨rfl, rfl⟩

/-- Settles O17: the results of the instruction that is run, or the error of the phase that failed. -/
theorem everyStepHasOneOfThreeResults : Obligations.EveryStepHasOneOfThreeResults := by
  intro s hh
  by_cases hpc : s.pc.toNat ≤ 0x0FFE
  · cases hd : decode s.fetchWord with
    | error d => exact ⟨_, step_of_decode_error hh hpc hd, .inr (.inr ⟨_, rfl, rfl, rfl⟩)⟩
    | ok i =>
      obtain ⟨t, hexec, hends⟩ := exec_ends i (s.latchOpcode s.fetchWord)
      refine ⟨t, (step_of_decode_ok hh hpc hd).trans hexec, ?_⟩
      obtain ⟨hok, hhalted⟩ | ⟨⟨x, rfl⟩, hidle, rfl⟩ | herr := hends.result_cases
      · exact .inl ⟨hok, hhalted.trans hh⟩
      · have idle (k : Fin 16) : s.key k = false :=
          Bool.eq_false_iff.2 fun hk => List.not_mem_nil (hidle ▸ (State.mem_pressedKeys _ k).2 hk)
        exact .inr (.inl ⟨rfl, hh, ⟨x, rfl⟩, idle,
          ((SameBut.refl _ s).latchOpcode _ (.inl rfl)).latchResult _ (.inr rfl)⟩)
      · exact .inr (.inr herr)
  · exact ⟨_, step_of_pc_gt hh (by omega), .inr (.inr ⟨_, rfl, rfl, rfl⟩)⟩

/-! ### The jump to itself (R128) -/

/-- The word of a jump, with its address as the value PC takes. -/
theorem encode_jp (nnn : Addr12) : encode (.jp nnn) = 0x1000 ||| zextAddr nnn := by
  apply BitVec.eq_of_toNat_eq
  rw [BitVec.toNat_or, zextAddr_toNat]
  exact BitVec.toNat_append 1#4 nnn

theorem zextAddr_setWidth {a : Word} (h : a.toNat < 0x1000) : zextAddr (a.setWidth 12) = a := by
  apply BitVec.eq_of_toNat_eq
  rw [zextAddr_toNat, BitVec.toNat_setWidth, Nat.mod_eq_of_lt h]

/-- Settles O18: the word at PC is that of the jump to PC. -/
theorem parkedStateIsAFixedPoint : Obligations.ParkedStateIsAFixedPoint := by
  intro s hh ⟨hpc, hword⟩
  have target : zextAddr (s.pc.setWidth 12) = s.pc := zextAddr_setWidth (by omega)
  have hjump : s.fetchWord = encode (.jp (s.pc.setWidth 12)) := by rw [encode_jp, target, hword]
  have hd : decode s.fetchWord = .ok (.jp (s.pc.setWidth 12)) :=
    hjump ▸ decodeOfEncodeIsTheInstruction (.jp _) rfl
  rw [step_of_decode_ok hh hpc hd, exec_jp, execJp, target]
  rfl

/-! ### The default advance (R125) -/

section
variable {s : State}

/-- An access ends in no error where it has no byte, or its last byte is in range (60_exceptions.md R213). -/
theorem accessError_eq_none {start count : Nat} {e : Error} :
    (if 0 < count ∧ 0x1000 < start + count then some e else none) = none ↔ count = 0 ∨ start + count ≤ 0x1000 := by
  simp only [ite_eq_right_iff, reduceCtorEq, imp_false]
  omega

theorem raisedBy_drw_eq_none {x y : RegIdx} {n : Nat} :
    raisedBy (.drw x y n) s = none ↔ n = 0 ∨ s.i.toNat + n ≤ 0x1000 :=
  accessError_eq_none

theorem raisedBy_bcd_eq_none {x : RegIdx} : raisedBy (.bcd x) s = none ↔ s.i.toNat + 3 ≤ 0x1000 :=
  accessError_eq_none.trans (by omega)

theorem raisedBy_stm_eq_none {x : RegIdx} : raisedBy (.stm x) s = none ↔ s.i.toNat + x.val ≤ 0xFFF :=
  accessError_eq_none.trans (by omega)

theorem raisedBy_ldm_eq_none {x : RegIdx} : raisedBy (.ldm x) s = none ↔ s.i.toNat + x.val ≤ 0xFFF :=
  raisedBy_stm_eq_none (x := x)

/-- An instruction with the default advance that ends in no error writes its operands, which leaves PC, and then advances. -/
theorem exec_advances {i : Instr} (hi : defaultAdvance i = true) (hr : raisedBy i s = none) :
    ∃ u : State, exec i s = finish u.advance ∧ u.pc = s.pc := by
  match i with
  | .cls | .ldi _ _ | .addi _ _ | .mov _ _ | .or _ _ | .and _ _ | .xor _ _ | .add _ _ | .sub _ _ | .shr _ _ | .subn _ _
  | .shl _ _ | .lda _ | .rnd _ _ | .lddt _ | .stdt _ | .stst _ | .adda _ | .ldf _ => exact ⟨_, rfl, rfl⟩
  | .drw x y n => exact ⟨_, execDrw_ok s x y n (raisedBy_drw_eq_none.1 hr), rfl⟩
  | .bcd x =>
    obtain ⟨m, hrun, -⟩ := s.storeAtI_ok (decimalDigits (s.readV x)) (.inr (raisedBy_bcd_eq_none.1 hr))
    exact ⟨_, hrun, rfl⟩
  | .stm x =>
    obtain ⟨m, hrun, -⟩ := execStm_ok s x (raisedBy_stm_eq_none.1 hr)
    exact ⟨_, hrun, rfl⟩
  | .ldm x => exact ⟨_, execLdm_ok s x (raisedBy_ldm_eq_none.1 hr), State.loadV_pc ..⟩

/-- FX0A with a key pressed stores a key number and advances (46_timers_and_keys.md R201). -/
theorem execLdk_advances (x : RegIdx) {k : Fin 16} (hk : s.key k = true) :
    ∃ u : State, execLdk x s = finish u.advance ∧ u.pc = s.pc := by
  unfold execLdk
  cases hp : s.pressedKeys with
  | nil => exact absurd ((s.mem_pressedKeys k).2 hk) (by simp [hp])
  | cons j rest => exact ⟨_, rfl, rfl⟩

end

/-- Settles O49: the instruction advances from a state in which PC is still its own address. -/
theorem defaultAdvanceIsPlusTwo : Obligations.DefaultAdvanceIsPlusTwo := by
  intro i s h
  have advances : ∃ u : State, exec i s = finish u.advance ∧ u.pc = s.pc := by
    obtain ⟨hi, hr⟩ | ⟨x, rfl, k, hk⟩ := h
    · exact exec_advances hi hr
    · exact execLdk_advances x hk
  obtain ⟨u, hexec, hu⟩ := advances
  exact ⟨_, hexec, rfl, congrArg (· + 2) hu⟩

end Sys2Proof.Machine
end

section
/-! SUPPORT. Control transfer (41_control_flow.md): what the jumps, the call and the return do, and the round trip of a call
and its return. -/

namespace Sys2Proof.Machine

/-! ### How an instruction ends -/

section
variable {i : Instr} {s u : State} {except : Piece → Prop} {post : State → Prop}

/-- An instruction that ends in Ok completes, with the frame of the updates it made. -/
theorem completes_of_finish (hexec : exec i s = finish u) (frame : SameBut (fun p => p = .pc ∨ p = .result ∨ except p) s u)
    (hpost : post (u.latchResult .ok)) : Completes i s except post :=
  ⟨_, hexec, rfl, frame.latchResult _ (.inr (.inl rfl)), hpost⟩

/-- An error raised before anything is written leaves all but the latch and the result. -/
theorem raises_of_raise {e : Error} (hexec : exec i s = raise e s) : Raises i s e (fun _ => False) :=
  ⟨_, hexec, rfl, rfl, ((SameBut.refl _ s).latchHalted e (.inl rfl)).latchResult _ (.inr (.inl rfl))⟩

/-- A piece of a frame that holds at the end what it held at first can be left out of the frame. -/
theorem SameBut.restored {w w' : Piece → Prop} (h : SameBut w s u) (hw : ∀ p, w p → w' p ∨ p.same s u) :
    SameBut w' s u := fun p hp => by
  by_cases hwp : w p
  · exact (hw p hwp).resolve_left hp
  · exact h p hwp

end

/-! ### The jumps (R141, R143) -/

/-- The sum of a byte and a 12-bit address fits in 16 bits. -/
theorem zextByte_add_zextAddr_toNat (b : Byte) (nnn : Addr12) :
    (zextByte b + zextAddr nnn).toNat = b.toNat + nnn.toNat := by
  rw [BitVec.toNat_add, zextByte_toNat, zextAddr_toNat, Nat.mod_eq_of_lt (by omega)]

/-- Settles O19: each jump is one write of PC. -/
theorem jumpsWritePcOnly : Obligations.JumpsWritePcOnly := fun s nnn =>
  ⟨completes_of_finish rfl ((SameBut.refl _ s).writePc _ (.inl rfl)) (zextAddr_toNat nnn),
    completes_of_finish rfl ((SameBut.refl _ s).writePc _ (.inl rfl)) (zextByte_add_zextAddr_toNat (s.readV 0) nnn)⟩

/-! ### The call (R142) -/

theorem execCall_room (nnn : Addr12) {s : State} (h : s.sp.val < 16) :
    execCall nnn s = finish ((s.push s.pc).writePc (zextAddr nnn)) :=
  if_neg fun h16 => h.ne (congrArg Fin.val h16)

theorem execCall_full (nnn : Addr12) {s : State} (h : s.sp.val = 16) :
    execCall nnn s = raise (.outOfBoundsAccess 16) s :=
  if_pos (Fin.ext h)

/-- Settles O20: the call is a push of PC and then a write of PC, or an error at its first test. -/
theorem callPushesItsAddressAndJumps : Obligations.CallPushesItsAddressAndJumps := by
  refine fun s nnn => ⟨fun k hk => ?_, fun hfull => raises_of_raise (execCall_full nnn hfull)⟩
  have room : s.sp.val < 16 := hk ▸ k.isLt
  have entry : (s.push s.pc).stack[k] = s.pc := by simp [s.push_stack s.pc room, hk]
  have written (j : Fin 16) (hj : j.val = s.sp.val) : Piece.stack j = .stack k := by rw [Fin.ext (hj.trans hk.symm)]
  exact completes_of_finish (execCall_room nnn room)
    (((SameBut.refl _ s).push s.pc (.inr (.inr (.inl rfl))) fun j hj => .inr (.inr (.inr (written j hj)))).writePc _
      (.inl rfl))
    ⟨entry, s.push_sp s.pc room, zextAddr_toNat nnn⟩

/-! ### The return (R140) -/

theorem execRet_used {s : State} (h : 0 < s.sp.val) : execRet s = finish (s.pop.writePc (s.pop.topEntry + 2)) :=
  if_neg fun h0 => h.ne' (congrArg Fin.val h0)

theorem execRet_empty {s : State} (h : s.sp.val = 0) : execRet s = raise (.outOfBoundsAccess 0) s :=
  if_pos (Fin.ext h)

/-- Settles O21: the return is a pop and then a write of PC, or an error at its first test. -/
theorem returnGoesBehindTheCall : Obligations.ReturnGoesBehindTheCall := by
  refine fun s => ⟨fun k hk => ?_, fun hempty => raises_of_raise (execRet_empty hempty)⟩
  have top : s.pop.topEntry + 2 = s.stack[k] + 2 := congrArg (· + 2) (s.topEntry_pop k hk)
  exact completes_of_finish (execRet_used (by omega))
    (((SameBut.refl _ s).pop (.inr (.inr rfl))).writePc _ (.inl rfl))
    ⟨(Nat.eq_sub_of_add_eq hk).symm, top⟩

/-! ### A call and its return (95_test_vectors.md S3) -/

/-- Settles O22: the return pops the entry that the call pushed, so SP is back at its value before the call. -/
theorem callThenReturnComesBack : Obligations.CallThenReturnComesBack := by
  intro s nnn room
  let k : Fin 16 := ⟨s.sp.val, room⟩
  obtain ⟨t, hcall, -, callFrame, entry, pushed, -⟩ := (callPushesItsAddressAndJumps s nnn).1 k rfl
  obtain ⟨u, hret, -, retFrame, popped, back⟩ := (returnGoesBehindTheCall t).1 k pushed.symm
  have sp : u.sp = s.sp := Fin.ext popped
  have frame : SameBut (fun p => p = .pc ∨ p = .result ∨ p = .sp ∨ p = .stack k) s u :=
    callFrame.trans (retFrame.mono fun _ => .imp_right (.imp_right .inl))
  refine ⟨t, u, hcall, hret, sp, by rw [back, entry], frame.restored ?_⟩
  rintro p (hpc | hresult | rfl | hstack)
  · exact .inl (.inl hpc)
  · exact .inl (.inr (.inl hresult))
  · exact .inr sp
  · exact .inl (.inr (.inr ⟨k, rfl, hstack⟩))

end Sys2Proof.Machine
end

section
/-! SUPPORT. Conditional skips (42_skips.md): the four register skips and the two key skips. -/

namespace Sys2Proof.Machine

section
variable {i : Instr} {s : State} {c : Bool} {P : Prop}

/-- The rule of the skip family (R156): an instruction whose one update is a skip on `c` writes PC alone, with `a + 4` exactly
when the condition that `c` tests holds. -/
theorem completes_of_skipIf [Decidable P] (hexec : exec i s = finish (s.skipIf c)) (hc : c = true ↔ P) :
    Completes i s (fun _ => False) (fun t => t.pc = if P then s.pc + 4 else s.pc + 2) :=
  completes_of_finish hexec ((SameBut.refl _ s).skipIf c (.inl rfl)) ((s.skipIf_pc c).trans (if_congr hc rfl rfl))

/-- The same rule, with its two outcomes apart. -/
theorem completes_of_skipIf_cases (hexec : exec i s = finish (s.skipIf c)) (hc : c = true ↔ P) :
    (P → Completes i s (fun _ => False) (fun t => t.pc = s.pc + 4)) ∧
      (¬ P → Completes i s (fun _ => False) (fun t => t.pc = s.pc + 2)) := by
  have := decidable_of_iff _ hc
  have skips := completes_of_skipIf hexec hc
  exact ⟨fun h => by rwa [if_pos h] at skips, fun h => by rwa [if_neg h] at skips⟩

end

/-- Settles O23: each register skip is a skip on the Boolean test of its condition. -/
theorem registerSkipsTestTheirCondition : Obligations.RegisterSkipsTestTheirCondition := fun _ _ _ _ =>
  ⟨completes_of_skipIf_cases rfl beq_iff_eq, completes_of_skipIf_cases rfl bne_iff_ne,
    completes_of_skipIf_cases rfl beq_iff_eq, completes_of_skipIf_cases rfl bne_iff_ne⟩

/-- Settles O24: a V[X] that names a key makes both a skip on that key's flag; any other V[X] is an error at the first test. -/
theorem keySkipsTestTheKeyThatVxNames : Obligations.KeySkipsTestTheKeyThatVxNames := by
  refine fun s x => ⟨fun k hk => ⟨?skp, ?sknp⟩, fun hx => ⟨?skpError, ?sknpError⟩⟩
  case skp => exact completes_of_skipIf (s.skipOnKey_key x true k hk) beq_iff_eq
  case sknp => exact completes_of_skipIf (s.skipOnKey_key x false k hk) beq_iff_eq
  case skpError => exact raises_of_raise (s.skipOnKey_error x true hx)
  case sknpError => exact raises_of_raise (s.skipOnKey_error x false hx)

end Sys2Proof.Machine
end

section
/-! SUPPORT. Load, ALU and random (43_load_and_alu.md): the instructions that write one register, the flag-writing ALU
instructions with their VF-aliased forms, and CXNN. -/

namespace Sys2Proof.Machine

section
variable {i : Instr} {s : State} {x y : RegIdx}

/-! ### One register written (R160 to R165) -/

/-- An instruction whose one update is `V[X] <- b` writes V[X] and PC alone. -/
theorem completes_of_setAndAdvance {b : Byte} {value : Byte → Prop} (hexec : exec i s = s.setAndAdvance x b)
    (hb : value b) : Completes i s (· = .v x) (fun t => value (t.readV x) ∧ t.pc = s.pc + 2) :=
  completes_of_finish hexec (((SameBut.refl _ s).writeV x b (.inr (.inr rfl))).writePc _ (.inl rfl))
    ⟨(s.readV_writeV_same x b).symm ▸ hb, rfl⟩

/-! ### The flag, then the result (R166 to R175) -/

theorem State.readV_writeV_toNat (s : State) (x r : RegIdx) (b : Byte) :
    ((s.writeV x b).readV r).toNat = if r = x then b.toNat else (s.readV r).toNat := by
  simp only [s.readV_writeV, eq_comm (a := x), apply_ite BitVec.toNat]

/-- A flag-writing ALU instruction, in numbers: the flag `c` goes to VF, and then `f` of the operands as they then stand goes
to V[X], so that an operand that is VF counts as `c` (decision D7). -/
theorem completes_of_flagOpAndAdvance {flag result : Byte → Byte → Byte} {c : Nat} (f : Nat → Nat → Nat)
    (hexec : exec i s = s.flagOpAndAdvance flag result x y) (hflag : (flag (s.readV x) (s.readV y)).toNat = c)
    (hresult : ∀ a b, (result a b).toNat = f a.toNat b.toNat) :
    Completes i s (fun p => p = .v x ∨ p = .v 15) (fun t =>
      (t.readV x).toNat = f (if x = 15 then c else (s.readV x).toNat) (if y = 15 then c else (s.readV y).toNat) ∧
        (x ≠ 15 → (t.readV 15).toNat = c) ∧ t.pc = s.pc + 2) := by
  let u := s.writeV 15 (flag (s.readV x) (s.readV y))
  have operand (r : RegIdx) : (u.readV r).toNat = if r = 15 then c else (s.readV r).toNat := by
    rw [s.readV_writeV_toNat, hflag]
  refine completes_of_finish hexec ((((SameBut.refl _ s).writeV 15 _ (.inr (.inr (.inr rfl)))).writeV x _
    (.inr (.inr (.inl rfl)))).writePc _ (.inl rfl)) ⟨?value, fun hx => ?vf, rfl⟩
  case value =>
    rw [← operand x, ← operand y, ← hresult]
    exact congrArg BitVec.toNat (u.readV_writeV_same x _)
  case vf =>
    exact (u.readV_writeV_toNat x 15 _).trans ((if_neg hx.symm).trans ((operand 15).trans (if_pos rfl)))

/-- What an instruction leaves, of what its completing says. -/
theorem Completes.leaves {except : Piece → Prop} {post post' : State → Prop} (h : Completes i s except post)
    (hpost : ∀ t, post t → post' t) : ∃ t, exec i s = .next t ∧ post' t := by
  obtain ⟨t, hexec, -, -, ht⟩ := h
  exact ⟨t, hexec, hpost t ht⟩

end

/-! ### The results of the flag writers, as numbers -/

theorem sub_toNat (a b : Byte) : (a - b).toNat = (256 + a.toNat - b.toNat) % 256 := by
  rw [BitVec.toNat_sub]; omega

theorem shiftLeft_one_toNat (a : Byte) : (a <<< 1).toNat = 2 * a.toNat % 256 := by
  rw [BitVec.toNat_shiftLeft, Nat.shiftLeft_eq, Nat.mul_comm]

theorem carryFlag_toNat (a b : Byte) : (carryFlag a b).toNat = if a.toNat + b.toNat > 255 then 1 else 0 := by
  simp [carryFlag]

theorem greaterFlag_toNat (a b : Byte) : (greaterFlag a b).toNat = if a.toNat > b.toNat then 1 else 0 := by
  simp [greaterFlag]

/-- Settles O25: each of the six is one write of V[X]; `sets_of` is the rule of such an instruction in the words of O25. -/
theorem loadAndLogicWriteVxOnly : Obligations.LoadAndLogicWriteVxOnly := by
  intro s x y nn sets bitwise
  have sets_of {i : Instr} {b : Byte} {value : Byte → Prop} (hexec : exec i s = s.setAndAdvance x b) (hb : value b) :
      sets i value := completes_of_setAndAdvance hexec hb
  clear_value sets
  exact ⟨sets_of rfl rfl, sets_of rfl (BitVec.toNat_add _ nn), sets_of rfl rfl,
    sets_of rfl fun _ _ => BitVec.getLsbD_or, sets_of rfl fun _ _ => BitVec.getLsbD_and,
    sets_of rfl fun _ _ => BitVec.getLsbD_xor⟩

/-- Settles O26: the flag is the carry, the result the sum. -/
theorem addSetsVfOnCarryThenAdds : Obligations.AddSetsVfOnCarryThenAdds := fun _ _ _ =>
  completes_of_flagOpAndAdvance (fun a b => (a + b) % 256) rfl (carryFlag_toNat _ _) BitVec.toNat_add

/-- Settles O27: the flag is the strict comparison, the result the difference, in the order of the operands of each. -/
theorem subtractSetsVfWhenGreaterThenSubtracts : Obligations.SubtractSetsVfWhenGreaterThenSubtracts := fun _ _ _ =>
  ⟨completes_of_flagOpAndAdvance (fun a b => (256 + a - b) % 256) rfl (greaterFlag_toNat _ _) sub_toNat,
    completes_of_flagOpAndAdvance (fun a b => (256 + b - a) % 256) rfl (greaterFlag_toNat _ _) fun a b => sub_toNat b a⟩

/-- Settles O28: the flag is the bit shifted out, the result the shift, and neither uses the second operand. -/
theorem shiftsMoveTheLostBitToVf : Obligations.ShiftsMoveTheLostBitToVf := fun _ _ _ =>
  ⟨completes_of_flagOpAndAdvance (fun a _ => a / 2) rfl (lowBitFlag_toNat _) fun a _ => BitVec.toNat_ushiftRight a 1,
    completes_of_flagOpAndAdvance (fun a _ => 2 * a % 256) rfl (highBitFlag_toNat _) fun a _ => shiftLeft_one_toNat a⟩

/-! ### The VF-aliased forms (R175) -/

/-- Settles O29: each row is the rule of its instruction, with the flag in the place of an operand that is VF. -/
theorem vfAliasedFormsFollowTheTable : Obligations.VfAliasedFormsFollowTheTable := by
  intro s x y hx hy
  have add := addSetsVfOnCarryThenAdds s
  have sub x y := (subtractSetsVfWhenGreaterThenSubtracts s x y).1
  have subn x y := (subtractSetsVfWhenGreaterThenSubtracts s x y).2
  obtain ⟨shr, shl⟩ := shiftsMoveTheLostBitToVf s 15 y
  refine ⟨(add 15 y).leaves ?addVfY, (add x 15).leaves ?addXVf, (add 15 15).leaves ?addVfVf,
    (sub 15 y).leaves ?subVfY, (sub x 15).leaves ?subXVf, (sub 15 15).leaves ?subVfVf,
    (subn 15 y).leaves ?subnVfY, (subn x 15).leaves ?subnXVf, (subn 15 15).leaves ?subnVfVf,
    shr.leaves ?shrVf, shl.leaves ?shlVf⟩
  all_goals rintro t ⟨value, vf, -⟩
  case addVfY | subVfY | subnVfY => simpa [hy] using value
  case addXVf | subXVf | subnXVf => exact ⟨vf hx, by simpa [hx] using value⟩
  case subVfVf | subnVfVf => simpa using value
  case addVfVf =>
    simp only [if_pos, ← two_mul] at value ⊢
    rw [value]
    split <;> rfl
  case shrVf | shlVf =>
    simp only [if_pos] at value
    omega

/-! ### The random byte (R173) -/

theorem and_and_not_self (a b : Byte) : a &&& b &&& ~~~b = 0 := by
  rw [BitVec.and_assoc, BitVec.and_not_self]; exact BitVec.and_zero

/-- Settles O30: one call is counted, and the byte of that call is masked and written. -/
theorem randomMasksOneByteOfTheSource : Obligations.RandomMasksOneByteOfTheSource := by
  intro s x nn
  let r := Config.randomByte s.rndCalls
  have written : (s.countRnd.writeV x (r &&& nn)).readV x = r &&& nn := State.readV_writeV_same _ x _
  exact completes_of_finish rfl ((((SameBut.refl _ s).countRnd (.inr (.inr (.inr rfl)))).writeV x _
      (.inr (.inr (.inl rfl)))).writePc _ (.inl rfl))
    ⟨written, (congrArg (· &&& ~~~nn) written).trans (and_and_not_self r nn), rfl, rfl⟩

end Sys2Proof.Machine
end

section
/-! SUPPORT. The address register and memory (44_index_and_memory.md): the instructions that write I, and the stores and
loads at I with their ending out of range. -/

namespace Sys2Proof.Machine

section
variable {i : Instr} {s u : State}

/-! ### How an instruction ends -/

theorem Completes.mono {except except' : Piece → Prop} {post post' : State → Prop} (h : Completes i s except post)
    (hexcept : ∀ p, except p → except' p) (hpost : ∀ t, post t → post' t) : Completes i s except' post' := by
  obtain ⟨t, hexec, hresult, frame, ht⟩ := h
  exact ⟨t, hexec, hresult, frame.mono fun p => .imp_right (.imp_right (hexcept p)), hpost t ht⟩

theorem Raises.mono {e : Error} {except except' : Piece → Prop} (h : Raises i s e except)
    (hexcept : ∀ p, except p → except' p) : Raises i s e except' := by
  obtain ⟨t, hexec, hresult, hhalted, frame⟩ := h
  exact ⟨t, hexec, hresult, hhalted, frame.mono fun p => .imp_right (.imp_right (hexcept p))⟩

/-- An error raised after some updates leaves the latch, the result and what those updates wrote. -/
theorem raises_of_raise_after {e : Error} {except : Piece → Prop} (hexec : exec i s = raise e u)
    (frame : SameBut except s u) : Raises i s e except :=
  ⟨_, hexec, rfl, rfl,
    ((frame.mono fun _ hp => .inr (.inr hp)).latchHalted e (.inl rfl)).latchResult _ (.inr (.inl rfl))⟩

/-- An access that runs out of range ends in the first address above 0xFFF (60_exceptions.md R215): in 0x1000 after the debris
of its middle where I is in range, in I with nothing written where it is not (R216). -/
theorem raises_of_outOfRange {debris : Piece → Prop}
    (mid : s.i.toNat ≤ 0xFFF → Raises i s (.outOfBoundsAccess 0x1000) debris)
    (first : 0xFFF < s.i.toNat → exec i s = raise (.outOfBoundsAccess s.i.toNat) s) :
    Raises i s (.outOfBoundsAccess (max s.i.toNat 0x1000)) (fun p => s.i.toNat ≤ 0xFFF ∧ debris p) := by
  by_cases hi : s.i.toNat ≤ 0xFFF
  · rw [Nat.max_eq_right (by omega)]
    exact (mid hi).mono fun _ hp => ⟨hi, hp⟩
  · have above : 0xFFF < s.i.toNat := Nat.lt_of_not_le hi
    rw [Nat.max_eq_left above]
    exact (raises_of_raise (first above)).mono fun _ => False.elim

/-! ### I written (R180 to R182) -/

/-- An instruction whose one update is `I <- a` writes I and PC alone. -/
theorem completes_of_writeI {a : Word} {n : Nat} (hexec : exec i s = finish (s.writeI a).advance) (ha : a.toNat = n) :
    Completes i s (· = .i) (fun t => t.i.toNat = n ∧ t.pc = s.pc + 2) :=
  completes_of_finish hexec (((SameBut.refl _ s).writeI a (.inr (.inr rfl))).writePc _ (.inl rfl)) ⟨ha, rfl⟩

/-! ### Stores at I (R183, R184) -/

/-- A store at I whose bytes are all in range: they stand at I, I + 1, ..., and no other byte is written. -/
theorem completes_of_storeAtI {bs : List Byte} (hexec : exec i s = s.storeAtI bs)
    (hin : s.i.toNat + bs.length ≤ 0x1000) :
    Completes i s (fun p => ∃ k, k < bs.length ∧ p = .mem (s.i.toNat + k)) (fun t =>
      (∀ k, k < bs.length → t.memory.read (s.i.toNat + k) = bs.getD k 0) ∧ t.pc = s.pc + 2) := by
  obtain ⟨m, hrun, -, hread⟩ := s.storeAtI_ok bs (.inr hin)
  have stored (k : Nat) (hk : k < bs.length) : m.read (s.i.toNat + k) = bs.getD k 0 := by
    rw [hread, if_pos (by omega), Nat.add_sub_cancel_left]
  refine completes_of_finish (hexec.trans hrun) (((SameBut.refl _ s).writeMemory m fun a => ?frame).writePc _ (.inl rfl))
    ⟨stored, rfl⟩
  case frame =>
    by_cases ha : s.i.toNat ≤ a ∧ a < s.i.toNat + bs.length
    · exact .inr (.inr (.inr ⟨a - s.i.toNat, by omega, by rw [Nat.add_sub_cancel' ha.1]⟩))
    · exact .inl ((hread a).trans (if_neg ha))

/-- A store at I with a byte out of range: nothing is written where I itself is, else no byte but those it covers that exist. -/
theorem raises_of_storeAtI {bs : List Byte} (hexec : exec i s = s.storeAtI bs) (hb : bs ≠ [])
    (hout : 0x1000 < s.i.toNat + bs.length) :
    Raises i s (.outOfBoundsAccess (max s.i.toNat 0x1000)) (fun p => s.i.toNat ≤ 0xFFF ∧
      (p = .freeDraws ∨ ∃ k, k < bs.length ∧ s.i.toNat + k ≤ 0xFFF ∧ p = .mem (s.i.toNat + k))) := by
  refine raises_of_outOfRange (fun hi => ?mid) fun hi => hexec.trans (s.storeAtI_first bs hb hi)
  case mid =>
    obtain ⟨-, kept⟩ := scribbleBytes_spec s.memory s.freeDraws s.i.toNat bs.length
    refine raises_of_raise_after (hexec.trans (s.storeAtI_mid bs hi hout))
      (((SameBut.refl _ s).writeMemory _ fun a => ?frame).countDraw (.inl rfl))
    by_cases ha : s.i.toNat ≤ a ∧ a < s.i.toNat + bs.length ∧ a ≤ 0xFFF
    · exact .inr (.inr ⟨a - s.i.toNat, by omega, by omega, by rw [Nat.add_sub_cancel' ha.1]⟩)
    · exact .inl (kept a ha)

/-! ### Loads at I (R185) -/

/-- A load of X + 1 bytes writes V[0] to V[X] alone. -/
theorem SameBut.loadUpTo {w : Piece → Prop} (h : SameBut w s u) (x : RegIdx) {bs : List Byte}
    (hb : bs.length = x.val + 1) (hw : ∀ r : RegIdx, r ≤ x → w (.v r)) : SameBut w s (u.loadV bs) :=
  h.loadV bs fun r hr => hw r (Nat.le_of_lt_succ (hr.trans_eq hb))

end

/-- Settles O32: each instruction is one write of I. -/
theorem immediateAndGlyphAddressGoToI : Obligations.ImmediateAndGlyphAddressGoToI := fun s x nnn =>
  ⟨completes_of_writeI rfl (zextAddr_toNat nnn), completes_of_writeI rfl (glyphAddr_toNat (s.readV x))⟩

/-- Settles O33: one write of I, of a sum of 16-bit words. -/
theorem addToAddressWrapsAt16Bits : Obligations.AddToAddressWrapsAt16Bits := fun s x =>
  completes_of_writeI rfl (by rw [BitVec.toNat_add, zextByte_toNat])

/-- Each decimal digit of a byte fits in a byte. -/
theorem decimalDigits_toNat (b : Byte) :
    ((decimalDigits b).getD 0 0).toNat = b.toNat / 100 ∧ ((decimalDigits b).getD 1 0).toNat = b.toNat / 10 % 10 ∧
      ((decimalDigits b).getD 2 0).toNat = b.toNat % 10 := by
  simp only [decimalDigits, List.getD_cons_zero, List.getD_cons_succ, BitVec.toNat_ofNat]
  omega

/-- Settles O34: FX33 is a store at I of three bytes, the digits. -/
theorem bcdStoresTheThreeDigits : Obligations.BcdStoresTheThreeDigits := by
  intro s x
  obtain ⟨hundreds, tens, ones⟩ := decimalDigits_toNat (s.readV x)
  refine ⟨fun hin => ?inRange, fun hout => ?outOfRange⟩
  case inRange =>
    refine (completes_of_storeAtI (bs := decimalDigits (s.readV x)) rfl (Nat.succ_le_succ hin)).mono (fun _ => id) ?_
    rintro t ⟨stored, pc⟩
    have digit (k : Nat) (hk : k < 3) := congrArg BitVec.toNat (stored k hk)
    exact ⟨(digit 0 (by decide)).trans hundreds, (digit 1 (by decide)).trans tens, (digit 2 (by decide)).trans ones, pc⟩
  case outOfRange =>
    exact raises_of_storeAtI (bs := decimalDigits (s.readV x)) rfl (List.cons_ne_nil _ _) (Nat.succ_lt_succ hout)

/-- Settles O35: FX55 is a store at I of X + 1 bytes, the first registers. -/
theorem storeRegistersStoresV0ToVx : Obligations.StoreRegistersStoresV0ToVx := by
  intro s x
  have length : (s.firstRegs x).length = x.val + 1 := s.firstRegs_length x
  have offset (k : Nat) (hk : k < (s.firstRegs x).length) : k ≤ x.val := Nat.le_of_lt_succ (hk.trans_eq length)
  refine ⟨fun hin => ?inRange, fun hout => ?outOfRange⟩
  case inRange =>
    refine (completes_of_storeAtI (bs := s.firstRegs x) rfl (by omega)).mono ?_ ?_
    · rintro p ⟨k, hk, hp⟩
      exact ⟨k, offset k hk, hp⟩
    · rintro t ⟨stored, pc⟩
      exact ⟨fun r hr => (stored r (length ▸ Nat.lt_succ_of_le hr)).trans (s.firstRegs_getD x r hr), pc⟩
  case outOfRange =>
    refine (raises_of_storeAtI (bs := s.firstRegs x) rfl (List.ne_nil_of_length_eq_add_one length) (by omega)).mono ?_
    rintro p ⟨hi, hp⟩
    exact ⟨hi, hp.imp_right fun ⟨k, hk, hmem⟩ => ⟨k, offset k hk, hmem⟩⟩

/-- Settles O36: FX65 loads the bytes at I, or the debris of a load, into the first X + 1 registers. -/
theorem loadRegistersLoadsV0ToVx : Obligations.LoadRegistersLoadsV0ToVx := by
  intro s x
  refine ⟨fun hin => ?inRange, fun hout => ?outOfRange⟩
  case inRange =>
    let bs := (List.range (x.val + 1)).map fun k => s.memory.read (s.i.toNat + k)
    have loaded (r : RegIdx) (hr : r ≤ x) : (s.loadV bs).readV r = s.memory.read (s.i.toNat + r.val) := by
      have hlt : r.val < x.val + 1 := Nat.lt_succ_of_le hr
      simp [s.readV_loadV, bs, hlt]
    exact completes_of_finish (execLdm_ok s x hin)
      (((SameBut.refl _ s).loadUpTo x (by simp) fun r hr => .inr (.inr ⟨r, hr, rfl⟩)).writePc _ (.inl rfl))
      ⟨loaded, by simp⟩
  case outOfRange =>
    refine raises_of_outOfRange (fun hi => ?mid) fun hi => execLdm_first s x hi
    exact raises_of_raise_after (execLdm_mid s x hi hout)
      (((SameBut.refl _ s).loadUpTo x (by simp) fun r hr => .inr ⟨r, hr, rfl⟩).countDraw (.inl rfl))

/-- Settles O37: FX55 leaves I, so FX65 loads from the addresses FX55 stored at; the registers above X are in its frame. -/
theorem storeThenLoadReproducesTheRegisters : Obligations.StoreThenLoadReproducesTheRegisters := by
  intro s x hin
  obtain ⟨t, hstore, -, storeFrame, stored, -⟩ := (storeRegistersStoresV0ToVx s x).1 hin
  have ti : t.i = s.i := storeFrame .i (by simp)
  refine ⟨t, hstore, fun u hmem hi => ?_⟩
  have ui : u.i = s.i := hi.trans ti
  obtain ⟨w, hload, -, loadFrame, loaded, -⟩ := (loadRegistersLoadsV0ToVx u x).1 (ui ▸ hin)
  refine ⟨w, hload, fun r => ⟨fun hr => ?upToX, fun hr => loadFrame (.v r) ?aboveX⟩⟩
  case upToX => rw [loaded r hr, hmem, ui, stored r hr]
  case aboveX => simpa using hr

end Sys2Proof.Machine
end

section
/-! SUPPORT. Display (45_display.md): the clear, the draw with its ending out of range, where a sprite bit lands, and a draw
made twice. -/

namespace Sys2Proof.Machine

/-! ### The clear (R190) -/

/-- Settles O39: the surface is replaced by the cleared one and draw_flag is set. -/
theorem clearZeroesEveryPixel : Obligations.ClearZeroesEveryPixel := fun s =>
  completes_of_finish rfl
    ((((SameBut.refl _ s).writePx pxClear fun k => .inr (.inr (.inr (.inr ⟨k, rfl⟩)))).writeDrawFlag true
      (.inr (.inr (.inl rfl)))).writePc _ (.inl rfl))
    ⟨fun k _ => pxGet_pxClear k, rfl, rfl⟩

/-! ### Where a sprite bit lands (R192) -/

/-- Settles O42: 2048 cells are 32 rows of 64, and the bits of one sprite are less than 2048 apart. -/
theorem pixelIndexWrapsTheLinearIndex : Obligations.PixelIndexWrapsTheLinearIndex := by
  refine fun x y row col hrow hcol => ⟨?lands, fun row' col' hrow' hcol' hsame => ?apart⟩
  case lands =>
    simp only [pixelIndex]
    omega
  case apart => exact pixelIndex_inj (by omega) (by omega) hcol hcol' hsame

/-! ### The draw in range (R191, R193, R194) -/

section
variable {s t : State} {x y : RegIdx} {n k : Nat}

/-- The `n` sprite rows at I. -/
def State.spriteAtI (s : State) (n : Nat) : List Byte := (List.range n).map fun row => s.memory.read (s.i.toNat + row)

@[simp] theorem State.spriteAtI_length (s : State) (n : Nat) : (s.spriteAtI n).length = n := by
  simp [State.spriteAtI]

theorem State.spriteAtI_getD (s : State) {row : Nat} (h : row < n) :
    (s.spriteAtI n).getD row 0 = s.memory.read (s.i.toNat + row) := by
  simp [State.spriteAtI, h]

/-- The cells that the sprite at I lights are those that the blit of its rows flips. -/
theorem mem_litCells_spriteAtI : k ∈ litCells (s.readV x) (s.readV y) 0 (s.spriteAtI n) ↔ spriteLights s x y n k := by
  rw [mem_litCells, State.spriteAtI_length, spriteLights]
  refine exists_congr fun row => exists_congr fun col => and_congr_right fun hrow => ?_
  rw [s.spriteAtI_getD hrow, Nat.zero_add]
  rfl

/-- The surface after DXYN: the lit cells flipped. -/
theorem pxGet_blit_spriteAtI (hn : n ≤ 31) [Decidable (spriteLights s x y n k)] :
    pxGet (blit (s.readV x) (s.readV y) (s.spriteAtI n) s.px).1 k =
      if spriteLights s x y n k then !pxGet s.px k else pxGet s.px k := by
  rw [(blit_spec _ _ (s.spriteAtI n) s.px (by simpa using hn)).1]
  exact if_congr mem_litCells_spriteAtI rfl rfl

/-- The collision of DXYN: some lit cell was set. -/
theorem blit_spriteAtI_collides (hn : n ≤ 31) :
    (blit (s.readV x) (s.readV y) (s.spriteAtI n) s.px).2 = true ↔ ∃ k, spriteLights s x y n k ∧ pxGet s.px k = true := by
  simp only [(blit_spec _ _ (s.spriteAtI n) s.px (by simpa using hn)).2, List.any_eq_true, mem_litCells_spriteAtI]

/-- The lit cells depend on the coordinates, I and memory alone. -/
theorem spriteLights_congr (hx : t.readV x = s.readV x) (hy : t.readV y = s.readV y) (hi : t.i = s.i)
    (hm : ∀ a, t.memory.read a = s.memory.read a) : spriteLights t x y n k ↔ spriteLights s x y n k := by
  simp only [spriteLights, hx, hy, hi, hm]

end

/-- Settles O40: the draw is the blit of the rows at I, then VF, draw_flag and PC. -/
theorem drawXorsTheSpriteAndReportsCollision : Obligations.DrawXorsTheSpriteAndReportsCollision := by
  classical
  intro s x y n hn hin
  have cell (k : Nat) := pxGet_blit_spriteAtI (s := s) (x := x) (y := y) (n := n) (k := k) (by omega)
  have collides := blit_spriteAtI_collides (s := s) (x := x) (y := y) (n := n) (by omega)
  generalize hdrawn : blit (s.readV x) (s.readV y) (s.spriteAtI n) s.px = drawn at cell collides
  have hexec : exec (.drw x y n) s =
      finish (((s.writePx drawn.1).writeV regVF (flagByte drawn.2)).writeDrawFlag true).advance :=
    hdrawn ▸ execDrw_ok s x y n hin
  refine completes_of_finish hexec
    (((((SameBut.refl _ s).writePx drawn.1 fun k => ?frame).writeV regVF _ (.inr (.inr (.inl rfl)))).writeDrawFlag true
      (.inr (.inr (.inr (.inl rfl))))).writePc _ (.inl rfl))
    ⟨fun k lit => (cell k).trans (if_pos lit), fun hit => ?hit, fun miss => ?miss, rfl, rfl⟩
  case frame =>
    by_cases lit : spriteLights s x y n k
    · exact .inr (.inr (.inr (.inr (.inr ⟨k, lit, rfl⟩))))
    · exact .inl ((cell k).trans (if_neg lit))
  case hit => simp [collides.2 hit, flagByte]
  case miss => simp [Bool.eq_false_iff.2 (mt collides.1 miss), flagByte]

/-! ### The draw out of range (R215, R216) -/

/-- The debris of a draw over the given cells writes those cells, VF, draw_flag and the count of draws alone. -/
theorem SameBut.scribblePx {w : Piece → Prop} {s t : State} (h : SameBut w s t) (cells : List Nat)
    (hlt : ∀ k ∈ cells, k < 2048) (hw : ∀ k ∈ cells, w (.pixel k)) (hvf : w (.v regVF)) (hflag : w .drawFlag)
    (hdraws : w .freeDraws) : SameBut w s (t.scribblePx cells) := by
  refine (((h.writePx _ fun k => ?_).writeV regVF _ hvf).writeDrawFlag _ hflag).countDraw hdraws
  by_cases hk : k ∈ cells
  · exact .inr (hw k hk)
  · exact .inl ((pxGet_pxCopy _ _ _ k hlt).trans (if_neg hk))

theorem coveredCells_lt {x y : Byte} {n k : Nat} (h : k ∈ coveredCells x y n) : k < 2048 := by
  obtain ⟨row, col, -, -, rfl⟩ := mem_coveredCells.1 h
  exact pixelIndex_lt x y row col

/-- Settles O41: a failure after the first row leaves the debris of a draw, a failure at it the debris in VF alone. -/
theorem drawOutOfRangeRaises : Obligations.DrawOutOfRangeRaises := by
  intro s x y n hn hout
  by_cases hi : s.i.toNat ≤ 0xFFF
  · rw [Nat.max_eq_right (by omega)]
    refine raises_of_raise_after (execDrw_mid s x y n hi hout)
      ((SameBut.refl _ s).scribblePx _ (fun _ => coveredCells_lt) (fun k hk => ?covered) (.inr (.inl rfl))
        (.inr (.inr ⟨hi, .inl rfl⟩)) (.inl rfl))
    case covered =>
      obtain ⟨row, col, hrow, hcol, rfl⟩ := mem_coveredCells.1 hk
      exact .inr (.inr ⟨hi, .inr ⟨row, col, hrow, hcol, rfl⟩⟩)
  · rw [Nat.max_eq_left (by omega)]
    exact raises_of_raise_after (execDrw_first s x y n hn (by omega))
      (((SameBut.refl _ s).writeV regVF _ (.inr (.inl rfl))).countDraw (.inl rfl))

/-! ### A draw made twice (95_test_vectors.md S8) -/

/-- Settles O43: the second draw lights the cells of the first, so it flips each of them back; a lit cell is set before the
second draw exactly when the first set it. -/
theorem drawingTwiceRestoresTheSurface : Obligations.DrawingTwiceRestoresTheSurface := by
  intro s x y n hn hin
  obtain ⟨t, hexec, -, frame, flips, -⟩ := drawXorsTheSpriteAndReportsCollision s x y n hn hin
  refine ⟨t, hexec, fun hx hy => ?_⟩
  have ti : t.i = s.i := frame .i (by simp)
  obtain ⟨w, hexec', -, frame', flips', hit', miss', -⟩ :=
    drawXorsTheSpriteAndReportsCollision t x y n hn (ti ▸ hin)
  have lights (k : Nat) : spriteLights t x y n k ↔ spriteLights s x y n k :=
    spriteLights_congr hx hy ti fun a => frame (.mem a) (by simp)
  have unlit (k : Nat) (h : ¬ spriteLights s x y n k) : pxGet t.px k = pxGet s.px k :=
    frame (.pixel k) (by simpa using h)
  have unlit' (k : Nat) (h : ¬ spriteLights s x y n k) : pxGet w.px k = pxGet t.px k :=
    frame' (.pixel k) (by simpa [lights] using h)
  refine ⟨w, hexec', fun k => ?restored, fun hvf => ?collision,
    fun ⟨k, wasClear, isSet⟩ => hit' ⟨k, (lights k).2 ?lit, isSet⟩⟩
  case restored =>
    by_cases lit : spriteLights s x y n k
    · rw [flips' k ((lights k).2 lit), flips k lit, Bool.not_not]
    · rw [unlit' k lit, unlit k lit]
  case collision =>
    have hit : ∃ k, spriteLights t x y n k ∧ pxGet t.px k = true := by
      by_contra miss
      exact absurd (hvf.symm.trans (miss' miss)) (by decide)
    obtain ⟨k, lit, isSet⟩ := hit
    have flipped := flips k ((lights k).1 lit)
    exact ⟨k, by simpa [isSet] using flipped, isSet⟩
  case lit =>
    by_contra h
    exact Bool.false_ne_true (wasClear.symm.trans ((unlit k h).symm.trans isSet))

end Sys2Proof.Machine
end

section
/-! SUPPORT. Timers and key wait (46_timers_and_keys.md): the three moves of a value between V[X] and a timer, and the two
outcomes of FX0A. -/

namespace Sys2Proof.Machine

/-! ### The timers (R200, R202, R203) -/

/-- Settles O44: FX07 is one write of V[X], and each of FX15 and FX18 is one write of its timer. -/
theorem timerInstructionsMoveTheValue : Obligations.TimerInstructionsMoveTheValue := by
  refine fun s x => ⟨?fx07, ?fx15, ?fx18⟩
  case fx07 => exact completes_of_setAndAdvance (value := (· = s.delayTimer)) rfl rfl
  case fx15 =>
    exact completes_of_finish rfl (((SameBut.refl _ s).writeDelay _ (.inr (.inr rfl))).writePc _ (.inl rfl)) ⟨rfl, rfl⟩
  case fx18 =>
    exact completes_of_finish rfl (((SameBut.refl _ s).writeSound _ (.inr (.inr rfl))).writePc _ (.inl rfl)) ⟨rfl, rfl⟩

/-! ### The key wait (R201) -/

theorem State.pressedKeys_eq_nil_iff (s : State) : s.pressedKeys = [] ↔ ∀ k, s.key k = false := by
  simp only [List.eq_nil_iff_forall_not_mem, s.mem_pressedKeys, Bool.not_eq_true]

/-- With no key pressed FX0A is Pending and does nothing else. -/
theorem execLdk_idle (x : RegIdx) {s : State} (idle : ∀ k, s.key k = false) : execLdk x s = pend s := by
  rw [execLdk, s.pressedKeys_eq_nil_iff.2 idle]

/-- With some key pressed FX0A draws one of the pressed keys and writes its number to V[X] (decision D15). -/
theorem execLdk_pressed (x : RegIdx) {s : State} (pressed : ∃ k, s.key k = true) :
    ∃ k, s.key k = true ∧ execLdk x s = finish (s.countDraw.writeV x (BitVec.ofNat 8 k.val)).advance := by
  obtain ⟨j, hj⟩ := pressed
  cases hkeys : s.pressedKeys with
  | nil => exact absurd hj (Bool.eq_false_iff.1 (s.pressedKeys_eq_nil_iff.1 hkeys j))
  | cons first rest =>
    have picked : pickKey s.freeDraws first rest ∈ s.pressedKeys := hkeys ▸ pickKey_mem s.freeDraws first rest
    exact ⟨_, (s.mem_pressedKeys _).1 picked, by rw [execLdk, hkeys]⟩

theorem keyNumber_toNat (k : Fin 16) : (BitVec.ofNat 8 k.val).toNat = k.val := by
  rw [BitVec.toNat_ofNat, Nat.mod_eq_of_lt (by omega)]

/-- Settles O45: an idle keypad leaves the state but for the result; else the key drawn, a pressed one, goes to V[X]. -/
theorem keyWaitPendsOrStoresAPressedKey : Obligations.KeyWaitPendsOrStoresAPressedKey := by
  refine fun s x => ⟨fun idle => ?pends, fun pressed => ?stores⟩
  case pends => exact ⟨_, execLdk_idle x idle, rfl, (SameBut.refl _ s).latchResult .pending rfl⟩
  case stores =>
    obtain ⟨k, hk, hexec⟩ := execLdk_pressed x pressed
    have stored : ((s.countDraw.writeV x (BitVec.ofNat 8 k.val)).readV x).toNat = k.val := by
      rw [State.readV_writeV_same, keyNumber_toNat]
    exact ⟨k, hk, completes_of_finish hexec
      ((((SameBut.refl _ s).countDraw (.inr (.inr (.inr rfl)))).writeV x _ (.inr (.inr (.inl rfl)))).writePc _ (.inl rfl))
      ⟨stored, rfl⟩⟩

end Sys2Proof.Machine
end

section
/-! SUPPORT. Errors (60_exceptions.md): the two errors of the fetch and the decode, where an instruction ends in an error, and
what the error leaves. -/

namespace Sys2Proof.Machine

/-! ### The fetch and the decode (R211, R212) -/

/-- Settles O14: the word of the two bytes at PC is the fetched word, which the decoder refuses. -/
theorem stepOnAnUnknownWordRaisesUnknownOpcode : Obligations.StepOnAnUnknownWordRaisesUnknownOpcode := by
  intro s op e hh hpc hop hd
  obtain rfl : op = s.fetchWord := BitVec.eq_of_toNat_eq (hop.trans s.fetchWord_toNat.symm)
  exact step_of_decode_error hh hpc hd

/-- Settles O15: with nothing to fetch, the step is the error of the fetch. -/
theorem stepOutsideMemoryRaisesOutOfBoundsFetch : Obligations.StepOutsideMemoryRaisesOutOfBoundsFetch :=
  fun _ hh hpc => step_of_pc_gt hh hpc

/-! ### Instructions the tables list no error for (R213, R229) -/

section
variable {i : Instr} {s : State}

theorem not_of_raisedBy_test {P : Prop} [Decidable P] {e : Error} (h : (if P then some e else none) = none) : ¬ P :=
  fun hp => Option.some_ne_none e ((if_pos hp).symm.trans h)

/-- EX9E and EXA1, which `raisedBy` lists alike, with a V[X] that names a key. -/
theorem skipOnKey_finishes {x : RegIdx} (pressed : Bool) (h : raisedBy (.skp x) s = none) :
    ∃ u, s.skipOnKey x pressed = finish u :=
  ⟨_, s.skipOnKey_key x pressed ⟨_, Nat.lt_of_not_le (not_of_raisedBy_test h)⟩ rfl⟩

/-- With no error listed for it, an instruction runs to its end or waits. -/
theorem exec_of_raisedBy_eq_none (h : raisedBy i s = none) : (∃ u, exec i s = finish u) ∨ exec i s = pend s := by
  cases hi : defaultAdvance i with
  | true =>
    obtain ⟨u, hexec, -⟩ := exec_advances hi h
    exact .inl ⟨_, hexec⟩
  | false =>
    cases i with
    | ret => exact .inl ⟨_, execRet_used (Nat.pos_of_ne_zero (not_of_raisedBy_test h))⟩
    | call nnn => exact .inl ⟨_, execCall_room nnn (by have := not_of_raisedBy_test h; omega)⟩
    | skp x => exact .inl (skipOnKey_finishes true h)
    | sknp x => exact .inl (skipOnKey_finishes false h)
    | ldk x =>
      by_cases pressed : ∃ k, s.key k = true
      · obtain ⟨k, -, hexec⟩ := execLdk_pressed x pressed
        exact .inl ⟨_, hexec⟩
      · exact .inr (execLdk_idle x fun k => Bool.eq_false_iff.2 fun hk => pressed ⟨k, hk⟩)
    | jp | jpv0 | sei | snei | ser | sner => exact .inl ⟨_, rfl⟩
    | _ => cases hi

end

/-! ### What an error leaves (R216) -/

/-- What an error of `i` at `s` may leave changed beside the latch and the result: the row of the access matrix where the first
access of FX33, FX55, FX65 or DXYN succeeds, VF of DXYN where it fails too, and nothing for any other instruction. -/
def faultDebris (i : Instr) (s : State) (p : Piece) : Prop :=
  match i with
  | .drw _ _ _ => p = .freeDraws ∨ p = .v regVF ∨ (s.i.toNat ≤ 0xFFF ∧ matrixRow i s p)
  | .bcd _ | .stm _ | .ldm _ => s.i.toNat ≤ 0xFFF ∧ matrixRow i s p
  | _ => False

section
variable {i : Instr} {s t : State} {e : Error}

theorem not_faultDebris_pc : ¬ faultDebris i s .pc := by
  cases i <;> simp [faultDebris, matrixRow]

/-- The error comes first in 00EE, 2NNN, EX9E and EXA1. -/
theorem not_faultDebris_of_tested (h : ∃ x nnn, i ∈ [Instr.ret, .call nnn, .skp x, .sknp x]) (p : Piece) :
    ¬ faultDebris i s p := by
  simp only [List.mem_cons, List.not_mem_nil, or_false] at h
  obtain ⟨x, nnn, rfl | rfl | rfl | rfl⟩ := h <;> exact id

/-- A first access that fails leaves nothing of FX33, FX55 and FX65. -/
theorem not_faultDebris_of_firstAccess (hi : 0xFFF < s.i.toNat) (h : ∃ x, i ∈ [Instr.bcd x, .stm x, .ldm x]) (p : Piece) :
    ¬ faultDebris i s p := by
  simp only [List.mem_cons, List.not_mem_nil, or_false] at h
  obtain ⟨x, rfl | rfl | rfl⟩ := h <;> exact fun hp => Nat.not_le.2 hi hp.1

/-- An instruction ends in the error that the tables list for it, with no more than its debris left changed. -/
theorem raises_of_raisedBy (h : raisedBy i s = some e) : Raises i s e (faultDebris i s) := by
  cases i with
  | ret =>
    obtain ⟨hempty, ⟨⟩⟩ := Option.ite_none_right_eq_some.1 h
    exact (returnGoesBehindTheCall s).2 hempty
  | call nnn =>
    obtain ⟨hfull, ⟨⟩⟩ := Option.ite_none_right_eq_some.1 h
    exact (callPushesItsAddressAndJumps s nnn).2 hfull
  | skp x =>
    obtain ⟨hx, ⟨⟩⟩ := Option.ite_none_right_eq_some.1 h
    exact ((keySkipsTestTheKeyThatVxNames s x).2 hx).1
  | sknp x =>
    obtain ⟨hx, ⟨⟩⟩ := Option.ite_none_right_eq_some.1 h
    exact ((keySkipsTestTheKeyThatVxNames s x).2 hx).2
  | drw x y n =>
    obtain ⟨⟨hn, hout⟩, ⟨⟩⟩ := Option.ite_none_right_eq_some.1 h
    refine (drawOutOfRangeRaises s x y n hn hout).mono ?_
    rintro p (hdraws | hvf | ⟨hi, hdrawn⟩)
    · exact .inl hdraws
    · exact .inr (.inl hvf)
    · exact .inr (.inr ⟨hi, .inr (hdrawn.imp_right .inl)⟩)
  | bcd x =>
    obtain ⟨⟨-, hout⟩, ⟨⟩⟩ := Option.ite_none_right_eq_some.1 h
    refine ((bcdStoresTheThreeDigits s x).2 (by omega)).mono ?_
    rintro p ⟨hi, hdraws | ⟨k, hk, -, hmem⟩⟩
    · exact ⟨hi, .inr (.inr hdraws)⟩
    · exact ⟨hi, .inl ⟨k, hk, hmem⟩⟩
  | stm x =>
    obtain ⟨⟨-, hout⟩, ⟨⟩⟩ := Option.ite_none_right_eq_some.1 h
    refine ((storeRegistersStoresV0ToVx s x).2 (by omega)).mono ?_
    rintro p ⟨hi, hdraws | ⟨k, hk, -, hmem⟩⟩
    · exact ⟨hi, .inr (.inr hdraws)⟩
    · exact ⟨hi, .inl ⟨k, hk, hmem⟩⟩
  | ldm x =>
    obtain ⟨⟨-, hout⟩, ⟨⟩⟩ := Option.ite_none_right_eq_some.1 h
    refine ((loadRegistersLoadsV0ToVx s x).2 (by omega)).mono ?_
    rintro p ⟨hi, hdraws | hreg⟩
    · exact ⟨hi, .inr (.inr hdraws)⟩
    · exact ⟨hi, .inl hreg⟩
  | _ => cases h

/-- An instruction has one next state, so the result and the frame of the error it ends in are those of that state. -/
theorem Raises.of_exec {except : Piece → Prop} (h : Raises i s e except) (hexec : exec i s = .next t) :
    t.result = some (.err e) ∧ SameBut (fun p => p = .halted ∨ p = .result ∨ except p) s t := by
  obtain ⟨u, hexec', hresult, -, frame⟩ := h
  obtain rfl : t = u := Host.Outcome.next.inj (hexec.symm.trans hexec')
  exact ⟨hresult, frame⟩

/-- The tables list every error that an instruction ends in. -/
theorem raisedBy_of_exec (hexec : exec i s = .next t) (herr : t.result = some (.err e)) : raisedBy i s = some e := by
  cases h : raisedBy i s with
  | some e' =>
    obtain ⟨hresult, -⟩ := (raises_of_raisedBy h).of_exec hexec
    cases hresult.symm.trans herr
    rfl
  | none =>
    obtain ⟨u, hend⟩ | hend := exec_of_raisedBy_eq_none h
    · cases hexec.symm.trans hend
      cases herr
    · cases hexec.symm.trans hend
      cases herr

end

/-- Settles O47: an error that is listed is raised, and an end in an error would be listed. -/
theorem instructionRaisesExactlyWhatTheTableSays : Obligations.InstructionRaisesExactlyWhatTheTableSays := by
  intro i s
  cases h : raisedBy i s with
  | some e =>
    obtain ⟨t, hexec, hresult, hhalted, -⟩ := raises_of_raisedBy h
    exact ⟨t, hexec, hresult, hhalted⟩
  | none =>
    obtain ⟨t, hexec, hends⟩ := exec_ends i s
    refine ⟨t, hexec, ?_⟩
    obtain ⟨hok, hhalted⟩ | ⟨hldk, -, rfl⟩ | ⟨e, herr, -⟩ := hends.result_cases
    · exact ⟨.inl hok, hhalted⟩
    · exact ⟨.inr ⟨rfl, hldk⟩, rfl⟩
    · cases h.symm.trans (raisedBy_of_exec hexec herr)

/-- Settles O48: PC is in no debris, and each of the last three frames is that of an error whose debris is empty, or VF alone. -/
theorem faultKeepsPcAndWhatTheInstructionDoesNotWrite : Obligations.FaultKeepsPcAndWhatTheInstructionDoesNotWrite := by
  intro i s t e hexec herr
  obtain ⟨-, frame⟩ := (raises_of_raisedBy (raisedBy_of_exec hexec herr)).of_exec hexec
  have pc : t.pc = s.pc := frame .pc (by simp [not_faultDebris_pc])
  have clean (h : ∀ p, ¬ faultDebris i s p) : SameBut (fun p => p = .halted ∨ p = .result) s t :=
    frame.mono fun p => .imp_right (Or.resolve_right · (h p))
  refine ⟨pc, (everyInstructionWritesOnlyItsMatrixRow i s t hexec).restored fun p hp => ?row,
    fun h => clean (not_faultDebris_of_tested h), fun hi h => clean (not_faultDebris_of_firstAccess hi h), ?draw⟩
  case row =>
    by_cases hpc : p = .pc
    · exact .inr (hpc ▸ pc)
    · exact .inl ⟨hpc, hp⟩
  case draw =>
    rintro hi ⟨x, y, n, rfl⟩
    refine frame.mono fun p => .imp_right (.imp_right (.imp_right fun h => h.resolve_right fun hp => ?_))
    exact Nat.not_le.2 hi hp.1

end Sys2Proof.Machine
end

section
/-! SUPPORT. Reset and the loader (70_reset_and_hazards.md), and the halted core (10_state.md R42). -/

namespace Sys2Proof.Machine

/-! ### The loader (R243) -/

section
variable {rom : List Byte} (s : State)

/-- What the loader answers to an image that fits: one write of memory, in which the image lies at 0x200. -/
theorem load_of_length_le (h : rom.length ≤ 3584) :
    ∃ m, load rom s = .ok (s.writeMemory m) ∧
      ∀ a, m.read a = if 0x200 ≤ a ∧ a < 0x200 + rom.length then rom.getD (a - 0x200) 0 else s.memory.read a :=
  ⟨_, if_pos h, (Memory.place_spec s.memory 0x200 rom (by omega)).2⟩

theorem load_of_length_gt (h : 3584 < rom.length) : load rom s = .error .memoryExhausted := if_neg (Nat.not_le.2 h)

end

/-- Settles O2: the write of memory changes the bytes the image covers and no other. -/
theorem loaderCopiesTheImageAt0x200 : Obligations.LoaderCopiesTheImageAt0x200 := by
  refine fun s rom => ⟨fun hlen => ?_, load_of_length_gt s⟩
  obtain ⟨m, hload, hread⟩ := load_of_length_le s hlen
  refine ⟨_, hload, (SameBut.refl _ s).writeMemory m fun a => ?frame, fun k hk => ?image⟩
  case frame =>
    by_cases ha : 0x200 ≤ a ∧ a < 0x200 + rom.length
    · exact .inr ⟨a - 0x200, by omega, by rw [Nat.add_sub_cancel' ha.1]⟩
    · exact .inl ((hread a).trans (if_neg ha))
  case image =>
    rw [State.writeMemory_memory, hread, if_pos (by omega), Nat.add_sub_cancel_left, List.getD_eq_getElem _ _ hk]

/-! ### The invariant after a reset -/

/-- The two clauses on the latch and the result hold of a core that has taken no step. -/
theorem State.BodyInv.inv_of_no_result {s : State} (h : s.BodyInv) (hh : s.halted = none) (hr : s.result = none) : s.Inv where
  memory_wf := h.memory_wf
  pc_le := h.pc_le
  stack_le := h.stack_le
  halted_result e he := by rw [hh] at he; cases he
  result_halted e he := by rw [hr] at he; cases he

theorem State.reset_bodyInv : State.reset.BodyInv where
  memory_wf := Memory.wf_reset
  pc_le := show (0x200 : Word).toNat ≤ 0x10FE by decide
  stack_le _ hk := absurd hk (Nat.not_lt_zero _)

/-- Settles O4: a reset leaves the latch and the result empty, whatever FONT and the pixels are. -/
theorem resetSatisfiesTheInvariant : Obligations.ResetSatisfiesTheInvariant :=
  ⟨State.reset_bodyInv.inv_of_no_result rfl rfl, fun s font px => (s.resetAgain_bodyInv font px).inv_of_no_result rfl rfl⟩

/-! ### The halted core (R42) -/

theorem step_of_halted {s : State} {e : Error} (h : s.halted = some e) : step s = .fault (.stepWhileHalted e) := by
  simp only [step, h]

/-- Settles O16: the latch is the first thing a step looks at. -/
theorem haltedCoreTakesNoStep : Obligations.HaltedCoreTakesNoStep := fun _ _ => step_of_halted

end Sys2Proof.Machine
end
